-- ==== Sys2Proof/Word.lean ====
section
/-!
DEFINITION. The widths of the M416: the 16-bit word of the port bus, and the finding Buffer Memory makes when it
reads a stored word of 22 bits (R114).
-/

namespace Sys2Proof

/-- A word is 16 bits (00_scope, Sizes; R172). -/
abbrev Word := BitVec 16

/-- A request tag, 0 to 255 (R138). -/
abbrev Tag := BitVec 8

/-- One bit for each of the 22 stored bits of a buffer memory word (R114): bits 15 to 0 stand for the data bits and
bits 21 to 16 for the six check bits. The order is the model's own naming of the bits. -/
abbrev StoredBits := BitVec 22

/-- What reading a stored word finds (R114). `corrected d` carries the data bits the code recovers: the data as written
after an error of one bit, possibly wrong data after an error of three or more. -/
inductive Finding where
  | noError
  | corrected (data : Word)
  | uncorrectable
  deriving DecidableEq, Repr, Inhabited

end Sys2Proof
end

