-- ==== Sys2Proof/Syntax.lean ====
section
/-!
DEFINITION. The commands of the M416: one constructor for each row of spec/opcode_table.json, in the table's order.
A command is one whole, indivisible event of the part (95_what_each_step_holds). A bus access names its port and what the
bus carries; the presentation of a request names its port alone, because the request's fields were copied from the staging
area when it was accepted (R133, R140); an event inside the part names the object it reaches.
-/

namespace Sys2Proof

/-- The four host ports (00_scope). -/
inductive Port where
  | A | B | C | D
  deriving DecidableEq, Repr

/-- A descriptor index, 0 to 127 (R1). -/
abbrev DescIx := Fin 128

/-- A block number, 0 to 511 (R17). -/
abbrev BlockIx := Fin 512

/-- A channel number, 0 to 15 (R40). -/
abbrev ChanIx := Fin 16

/-- A word of buffer memory, 0 to 65535: word w is word w mod 128 of block w div 128 (R36, 2.1). -/
abbrev MemIx := Fin 65536

/-- What a bus write carries: the sixteen data lines and the two byte strobes, `true` for asserted (R99, R172). -/
structure BusWrite where
  data : Word
  low  : Bool
  high : Bool
  deriving DecidableEq, Repr

/-- The commands. -/
inductive Instr where
  /-- A bus read of the submit word (R132). -/
  | submission (p : Port)
  /-- A bus write to the window word at word address `addr`; its window offset is twice `addr` (R172, R173). -/
  | registerWrite (p : Port) (addr : BitVec 15) (w : BusWrite)
  /-- A bus write to the consume word (R151). -/
  | consume (p : Port) (w : BusWrite)
  /-- A bus write to the attention enable word (R157, R174). -/
  | attentionEnableWrite (p : Port) (w : BusWrite)
  /-- A bus write to the fault clear word (R110). -/
  | faultClear (p : Port) (w : BusWrite)
  /-- A bus read of the tick low word (R175). -/
  | tickLowRead (p : Port)
  /-- A bus read in the aperture slots, at window offset twice `addr` (R99, R107). -/
  | apertureRead (p : Port) (addr : BitVec 14)
  /-- A bus write in the aperture slots, at window offset twice `addr` (R99, R108). -/
  | apertureWrite (p : Port) (addr : BitVec 14) (w : BusWrite)
  /-- The ATTACH of port `p` is taken (R161). -/
  | attach (p : Port)
  /-- The DETACH of port `p` is presented (R162). -/
  | detach (p : Port)
  /-- The presentation of a CANCEL of `p` (R146). -/
  | cancel (p : Port)
  /-- The presentation of an ALLOCATE of `p` (R25, R26). -/
  | allocate (p : Port)
  /-- The presentation of a FREE of `p` (R32). -/
  | free (p : Port)
  /-- The presentation of a REFILL of `p` (R83). -/
  | refill (p : Port)
  /-- The presentation of a GRANT of `p` (R33, R34). -/
  | grant (p : Port)
  /-- The presentation of a RETEST of `p` (R123). -/
  | retest (p : Port)
  /-- The presentation of a QUERY_POOL of `p` (R35). -/
  | queryPool (p : Port)
  /-- The presentation of an OFFER of `p` (R43, R44). -/
  | offer (p : Port)
  /-- The presentation of a WITHDRAW of `p` (R48). -/
  | withdraw (p : Port)
  /-- The presentation of an ACCEPT of `p` (R46). -/
  | accept (p : Port)
  /-- The presentation of a REJECT of `p` (R47). -/
  | reject (p : Port)
  /-- The presentation of a CLOSE of `p` (R51). -/
  | close (p : Port)
  /-- The presentation of a QUERY_CHANNEL of `p` (R57). -/
  | queryChannel (p : Port)
  /-- The presentation of a POST of `p` (R60, R63). -/
  | post (p : Port)
  /-- The presentation of a TAKE of `p` (R66, R67, R68). -/
  | take (p : Port)
  /-- The presentation of a COLLECT of `p` (R78, R79, R80). -/
  | collect (p : Port)
  /-- The presentation of a RELEASE of `p` (R71). -/
  | release (p : Port)
  /-- The presentation of a RETURN of `p` (R75, R76, R77). -/
  | returnBuffer (p : Port)
  /-- The presentation of a RENEW of `p` (R91). -/
  | renew (p : Port)
  /-- The presentation of a MAP of `p` (R101, R102). -/
  | mapSlot (p : Port)
  /-- The presentation of an UNMAP of `p` (R103). -/
  | unmapSlot (p : Port)
  /-- The Pool Unit re-examines the allocation wait list (R28, R29). -/
  | poolReexamination
  /-- One tick of the Time Base (R85, R87). -/
  | tick
  /-- The expiry of the wait timer of `p`'s waiting ALLOCATE with this tag (R30). -/
  | allocationWaitExpiry (p : Port) (tag : Tag)
  /-- The expiry of the wait timer of the TAKE with this tag waiting on channel `c` (R70). -/
  | takeWaitExpiry (c : ChanIx) (tag : Tag)
  /-- The expiry of the wait timer of the COLLECT with this tag waiting on channel `c` (R81). -/
  | collectWaitExpiry (c : ChanIx) (tag : Tag)
  /-- The expiry of the offer timer of channel `c` (R49). -/
  | offerExpiry (c : ChanIx)
  /-- The expiry of the hold timer of descriptor `d` (R92, R93). -/
  | holdExpiry (d : DescIx)
  /-- The end of the block test in progress (R124, R125). -/
  | blockTestEnd
  /-- The next step of port `p`'s reclaim walk (R168). -/
  | reclaimWalkStep (p : Port)
  /-- Assertion of `p`'s port reset input (R163). -/
  | portResetAssert (p : Port)
  /-- Release of `p`'s port reset input (R163). -/
  | portResetRelease (p : Port)
  /-- Assertion of nRESET (R171). -/
  | deviceReset
  /-- Release of nRESET, which starts the memory clear (R36). -/
  | memoryClear
  /-- The end of the memory clear (R36). -/
  | deviceReady
  /-- The stored bits of word `w` named by `flips` are upset, and the cells named by `stuck` come to hold the bits of
  `level` for good, a lasting fault (R114, 7.5; assumption 16). -/
  | storedBitUpset (w : MemIx) (flips stuck level : StoredBits)
  deriving DecidableEq, Repr

end Sys2Proof
end

