-- ==== Sys2Proof/Decode.lean ====
section
/-!
DEFINITION. The command a word spells by the opcode table's bits. The M416 has no instruction encoding: no row of
spec/opcode_table.json gives bits, so no word spells a command.
-/

namespace Sys2Proof

/-- The command that an instruction word of `nbits` bits spells: none, since the table gives no row any bits. -/
def decodeTableWord (_nbits _w : Nat) : Option Instr := none

end Sys2Proof
end

