-- ==== Sys2Proof/Config.lean ====
section
/-!
DEFINITION. What one M416 fixes and the spec does not say: the check code of buffer memory, what an error of three or
more bits is found as, and the free values. Each is opaque, so that no proof can see its value.
-/

namespace Sys2Proof.Config

/-- The six check bits Buffer Memory computes from 16 data bits. R114 gives the code's powers and not the code
(DESIGN CHOICE, assumption 3). -/
opaque checkBits : Word → BitVec 6

/-- What an error of three or more bits is found as, from the data bits and check bits read: no error, a corrected error
with wrong data, or an uncorrectable error (R114; DESIGN CHOICE, assumption 4). -/
opaque multiBitFinding : Word → BitVec 6 → Finding

/-- The free values, a fresh one for each draw: a value the spec gives an event without saying which
(DESIGN CHOICE, assumption 2). -/
opaque freeWord : Nat → Word

end Sys2Proof.Config
end

