-- ==== Sys2Proof/Machine/State.lean ====
section
/-!
DEFINITION. The state of the M416: every register, record, list, queue, timer and input the spec gives it, as plain data,
and the queue of waiting commands. INVENTORY.md lists each with its rule and reset value.
-/

namespace Sys2Proof.Machine

/-- Why a command stops with a fault. The spec gives every command an effect or no effect in every state, so there is no
such reason and the type has no constructor: an aperture access fault (R104) is an effect on the state, not a stop. -/
inductive Fault where
  deriving DecidableEq, Repr

/-- Why a command has no meaning. `notModelled` is raised by an arm of `exec` alone, for a row that has no meaning yet:
safe, since the run stops. No arm raises it in this model. -/
inductive Refusal where
  | notModelled (mnemonic : String)
  deriving DecidableEq, Repr

/-! ### Names the part reports (11.3) -/

/-- The 23 request kinds (R131, 11.3). -/
inductive ReqKind where
  | attach | detach | cancel | allocate | free | refill | grant | retest | queryPool | offer | withdraw | accept
  | reject | close | post | take | collect | release | returnBuffer | renew | queryChannel | mapSlot | unmapSlot
  deriving DecidableEq, Repr

/-- The 28 result codes (R145, 11.3). -/
inductive ResultCode where
  | done | cancelled | timedOut | closed | rejected | expired | withdrawn | peerGone | badRequest | staleHandle
  | notHolder | wrongState | notEndpoint | noChannel | wrongKind | full | empty | overQuota | noBuffer | channelBusy
  | peerOffline | noOffer | range | renewLimit | busy | slotInUse | notMapped | notWaiting
  deriving DecidableEq, Repr

/-- The eleven notice kinds (9.2, 11.3). -/
inductive NoticeKind where
  | offerArrived | channelClosing | channelUnbound | peerDetached | arrival | returnArrival | revoked | bounced
  | quotaGranted | accessFault | dataDamaged
  deriving DecidableEq, Repr

/-- The eight answers of the submit word (R132). -/
inductive SubmitAnswer where
  | notReady | reclaiming | notOnline | badKind | tagInUse | noSlot | noRoom | accepted
  deriving DecidableEq, Repr

/-! ### Timers -/

/-- A running timer holds the ticks remaining, 1 to 65535; the tick that would take the count from 1 to 0 makes it run
out, and it stays so until its expiry is taken or it is stopped (R87; DEDUCED, assumption 20). -/
inductive Timer where
  | running (left : Nat)
  | ranOut
  deriving DecidableEq, Repr

/-! ### Descriptors (chapter 1) -/

/-- How a buffer came back to its producer (R7). -/
inductive BufOutcome where
  | replied | undelivered | revoked
  deriving DecidableEq, Repr

/-- The fields present in every state but FREE: origin, block list and damaged flag (R1). The extent is 256 times the
number of blocks and is not stored (R5). -/
structure Buf where
  origin  : Port
  blocks  : List BlockIx
  damaged : Bool
  deriving DecidableEq, Repr

/-- The fields POST sets: length, channel, sequence and reply range, as open and close offsets (R6). -/
structure Traffic where
  length   : Nat
  channel  : ChanIx
  sequence : BitVec 16
  reply    : Option (Nat × Nat)
  deriving DecidableEq, Repr

/-- The fields set where the descriptor comes back: outcome and reply length (R7). -/
structure Came where
  outcome     : BufOutcome
  replyLength : Option Nat
  deriving DecidableEq, Repr

/-- The state of a descriptor with the fields that are present in it (R1). The holder of a FILLING or COLLECTED
descriptor is its origin and is not stored twice; the holder of a HELD one is set at the transition (R4). `timer` is the
hold time remaining, absent where the channel's hold limit is 0, and `renewals` the renewals used (R8). -/
inductive Life where
  | free
  | filling (b : Buf)
  | queued (b : Buf) (t : Traffic)
  | held (b : Buf) (t : Traffic) (holder : Port) (timer : Option Timer) (renewals : Nat)
  | returning (b : Buf) (t : Traffic) (r : Came)
  | collected (b : Buf) (t : Traffic) (r : Came)
  deriving DecidableEq, Repr

/-- The names of the six descriptor states (1.2). -/
inductive DescState where
  | free | filling | queued | held | returning | collected
  deriving DecidableEq, Repr

/-- A descriptor record: its generation, which outlives the buffer (R2), and its life (R1). -/
structure Desc where
  generation : BitVec 8
  life       : Life
  deriving DecidableEq, Repr

/-! ### The pool (chapter 2) -/

/-- The states of a block (R17). -/
inductive BlockState where
  | free | inUse | retired
  deriving DecidableEq, Repr

/-- A block record: its state and its suspect mark (R17). -/
structure BlockRec where
  state   : BlockState
  suspect : Bool
  deriving DecidableEq, Repr

/-- An entry of the allocation wait list (R27). -/
structure AllocWait where
  port  : Port
  tag   : Tag
  count : Nat
  timer : Option Timer
  deriving DecidableEq, Repr

/-- INITIALISING or READY (R36). -/
inductive DeviceState where
  | initialising | ready
  deriving DecidableEq, Repr

/-! ### Channels (chapters 3 and 4) -/

/-- The two channel kinds (R40). -/
inductive ChanKind where
  | oneWay | roundTrip
  deriving DecidableEq, Repr

/-- The fields an OFFER sets (R40, R44). -/
structure ChanParams where
  kind       : ChanKind
  producer   : Port
  consumer   : Port
  depthLimit : Nat
  holdLimit  : Nat
  renewLimit : Nat
  deriving DecidableEq, Repr

/-- An entry of a take-wait or collect-wait list: the request's tag and its wait timer (R69, R72). -/
structure Wait where
  tag   : Tag
  timer : Option Timer
  deriving DecidableEq, Repr

/-- The fields present in OPEN and CLOSING (R40). On a ONE_WAY channel the return queue and the collect-wait list, which
are absent there, stand empty. -/
structure Active where
  params         : ChanParams
  closedProducer : Bool
  closedConsumer : Bool
  nextSequence   : BitVec 16
  forward        : List DescIx
  returns        : List DescIx
  takeWaits      : List Wait
  collectWaits   : List Wait
  deriving DecidableEq, Repr

/-- A channel record with the fields present in its state (R40): OPEN is `active` with both closed flags clear, CLOSING
`active` with at least one set. `offerTag` is the tag of the waiting OFFER, by which it is completed (R138; DEDUCED, assumption 21). -/
inductive Chan where
  | unbound
  | offered (params : ChanParams) (offerTag : Tag) (timer : Timer)
  | active (a : Active)
  deriving DecidableEq, Repr

/-- The names of the four channel states (R40). -/
inductive ChanState where
  | unbound | offered | opened | closing
  deriving DecidableEq, Repr

/-! ### Host port interfaces and aperture tables (chapters 6, 8, 9, 10) -/

/-- The copied request record: its twelve fields (R129, R177), the kind already read as one of the 23. -/
structure Request where
  kind       : ReqKind
  tag        : Tag
  handle     : Word
  channel    : BitVec 5
  peer       : BitVec 3
  chanKind   : BitVec 2
  slot       : BitVec 6
  count      : Word
  length     : Word
  replyOpen  : Word
  replyClose : Word
  limit      : Word
  deriving DecidableEq, Repr

/-- The states of a request-table entry (R136). -/
inductive EntryState where
  | pending | waiting | running
  deriving DecidableEq, Repr

/-- A request-table entry (R136). -/
structure Entry where
  req   : Request
  state : EntryState
  deriving DecidableEq, Repr

/-- The value fields of an event record: channel, block count and damaged flag of word 1, and V0 to V4 (R178). A field a
record does not carry is 0. -/
structure Vals where
  channel    : BitVec 4 := 0#4
  blockCount : Nat := 0
  damaged    : Bool := false
  v0         : Word := 0#16
  v1         : Word := 0#16
  v2         : Word := 0#16
  v3         : Word := 0#16
  v4         : Word := 0#16
  deriving DecidableEq, Repr

/-- An event record of one of the three types (R143, R150, R153, R155). A set of notice kinds is held as the record shows
it, bit k - 1 for the kind of value k, and a set of channels with bit c for channel c (R178). -/
inductive EventRecord where
  | completion (result : ResultCode) (tag : Tag) (kind : ReqKind) (vals : Vals) (stamp : Word)
  | notice (kind : NoticeKind) (vals : Vals) (stamp : Word)
  | summary (kinds : BitVec 11) (channels : BitVec 16) (stamp : Word)
  deriving DecidableEq, Repr

/-- The direction of an aperture access (R109). -/
inductive Direction where
  | read | write
  deriving DecidableEq, Repr

/-- The fault kinds of an aperture access (R104). -/
inductive FaultKind where
  | unmapped | stale | outOfExtent | writeDenied
  deriving DecidableEq, Repr

/-- A valid fault capture record (R109). -/
structure Capture where
  slot      : Fin 8
  offset    : Nat
  direction : Direction
  kind      : FaultKind
  more      : Bool
  deriving DecidableEq, Repr

/-- The state of a port (R160). A RECLAIMING port holds the index its reclaim walk reaches next (R168). -/
inductive PortState where
  | offline
  | online
  | reclaiming (next : DescIx)
  deriving DecidableEq, Repr

/-- What one Host Port Interface and its Aperture Table hold. `resetIn` is the level of the port reset input, `true` while
asserted (R163). `dataOut` is the word the port's latest read command returned on its data lines (R172;
DESIGN CHOICE, assumption 15). -/
structure Hpi where
  state       : PortState
  resetIn     : Bool
  staging     : Vector Word 8
  table       : List Entry
  queue       : List EventRecord
  sumKinds    : BitVec 11
  sumChannels : BitVec 16
  attnEnable  : Bool
  tickLatch   : Word
  apertures   : Vector (Option Word) 8
  capture     : Option Capture
  dataOut     : Word
  deriving DecidableEq, Repr

/-- One thing for each of the four ports. -/
structure PerPort (α : Type) where
  a : α
  b : α
  c : α
  d : α
  deriving DecidableEq, Repr

/-! ### Buffer Memory (chapter 7) -/

/-- The cells of one word that have a lasting fault, and the bits they hold (7.5; DESIGN CHOICE, assumption 16). -/
structure Stuck where
  cells : StoredBits
  level : StoredBits
  deriving DecidableEq, Repr

/-- An upset of word `word` of the block under test during its test: the bits it flipped, the cells that failed with it
(none that had failed before), and the moment it fell at, as the number of the test's operations then done. The model's own
note (assumption 8). -/
structure Disturbance where
  word   : MemIx
  flips  : StoredBits
  cells  : StoredBits
  moment : Nat
  deriving DecidableEq, Repr

/-- The RETEST record while running (R122). `requester` holds the port and the tag, absent once that port has begun
reclaim. `disturbed` is the model's own: the upsets of the block under test since its test began, oldest first. -/
structure Retest where
  requester : Option (Port × Tag)
  tested    : Nat
  remaining : Nat
  passed    : Nat
  block     : BlockIx
  disturbed : List Disturbance
  deriving DecidableEq, Repr

/-! ### The machine -/

/-- The state of the M416. `mem` is buffer memory as last stored, by byte address (256 times the block plus the byte),
`upsets` the stored bits of a word that differ from what was stored, and `stuckCells` the lasting faults, each in the
canonical form of `Machine.cellsWf`. `reexamsDue` counts the re-examinations of the allocation wait list that have been
called for and not yet taken (R29; DEDUCED, assumption 19). `freeDraws` is the model's own count of free values drawn, and `pending` the queue of
commands waiting, first in, first out. -/
structure State where
  resetIn    : Bool
  device     : DeviceState
  ticks      : BitVec 32
  ports      : PerPort Hpi
  descs      : Vector Desc 128
  blocks     : Vector BlockRec 512
  freeList   : List BlockIx
  retired    : List BlockIx
  quotas     : PerPort Nat
  allocWaits : List AllocWait
  reexamsDue : Nat
  chans      : Vector Chan 16
  mem        : List Host.Cell
  upsets     : List (Nat × StoredBits)
  stuckCells : List (Nat × Stuck)
  retest     : Option Retest
  freeDraws  : Nat
  pending    : List Instr
  deriving DecidableEq, Repr

/-- An HPI and Aperture Table after device reset (R128, R136, R159, R113, R171, R175). -/
def Hpi.reset : Hpi where
  state       := .offline
  resetIn     := false
  staging     := Vector.replicate 8 0#16
  table       := []
  queue       := []
  sumKinds    := 0#11
  sumChannels := 0#16
  attnEnable  := false
  tickLatch   := 0#16
  apertures   := Vector.replicate 8 none
  capture     := none
  dataOut     := 0#16

/-- The same thing for every port. -/
def PerPort.all {α : Type} (x : α) : PerPort α := ⟨x, x, x, x⟩

/-- The machine after power-on, with nRESET asserted and every port reset input released: every block of the part at its
reset values (R16, R36, R38, R58, R85, R113, R122, R159, R171). It runs once nRESET is released (`memoryClear`). The levels of the inputs and
the values the spec does not state are a DESIGN CHOICE (assumption 1). -/
def State.reset : State where
  resetIn    := true
  device     := .initialising
  ticks      := 0#32
  ports      := PerPort.all Hpi.reset
  descs      := Vector.replicate 128 ⟨0#8, .free⟩
  blocks     := Vector.replicate 512 ⟨.free, false⟩
  freeList   := List.finRange 512
  retired    := []
  quotas     := PerPort.all 128
  allocWaits := []
  reexamsDue := 0
  chans      := Vector.replicate 16 .unbound
  mem        := []
  upsets     := []
  stuckCells := []
  retest     := none
  freeDraws  := 0
  pending    := []

end Sys2Proof.Machine
end

