-- ==== Sys2Proof/Machine/Memory.lean ====
section
/-!
DEFINITION. Buffer memory: a sparse map in one canonical form, the stored word of 22 bits with its errors (chapter 7), and
the operations that read and store words.
-/

namespace Sys2Proof.Machine

/-! ### Sparse maps

A list of keys and values whose keys rise strictly and of which no value is `d`, what an unlisted key reads as. -/

/-- The value at key `k`. -/
def cellGet {α : Type} (d : α) (k : Nat) : List (Nat × α) → α
  | [] => d
  | (k', v) :: rest => if k' = k then v else cellGet d k rest

/-- The map with `v` at key `k`; storing `d` removes the entry, so that equal maps are equal lists. -/
def cellSet {α : Type} [DecidableEq α] (d : α) (k : Nat) (v : α) : List (Nat × α) → List (Nat × α)
  | [] => if v = d then [] else [(k, v)]
  | (k', v') :: rest =>
    if k < k' then (if v = d then (k', v') :: rest else (k, v) :: (k', v') :: rest)
    else if k = k' then (if v = d then rest else (k, v) :: rest)
    else (k', v') :: cellSet d k v rest

/-- The canonical form: keys strictly rising and below `size`, no value equal to `d`. -/
def cellsWf {α : Type} [DecidableEq α] (d : α) (size : Nat) : List (Nat × α) → Bool
  | [] => true
  | (k, v) :: rest =>
    decide (v ≠ d) && decide (k < size) && rest.all (fun e => decide (k < e.1)) && cellsWf d size rest

/-! ### The stored word -/

/-- No cell of the word has a lasting fault. -/
def Stuck.none : Stuck := ⟨0#22, 0#22⟩

/-- Bytes of buffer memory: 512 blocks of 256 (2.1). -/
def memBytes : Nat := 131072

/-- Words of buffer memory (R36). -/
def memWords : Nat := 65536

/-- The byte of buffer memory at address `a`, as last stored: 0 where nothing has been stored since the memory clear
(DESIGN CHOICE, assumption 12). -/
def State.byteAt (s : State) (a : Nat) : BitVec 8 := cellGet 0#8 a s.mem

/-- The data bits last stored in word `w`: bits 7 to 0 are the byte at 2w, bits 15 to 8 the byte at 2w + 1 (R99). -/
def State.written (s : State) (w : MemIx) : Word := s.byteAt (2 * w.val + 1) ++ s.byteAt (2 * w.val)

/-- The 22 bits Buffer Memory stores for 16 data bits (R114). -/
def codeword (d : Word) : StoredBits := Config.checkBits d ++ d

/-- The stored bits of word `w` that an upset has changed since it was stored. -/
def State.upset (s : State) (w : MemIx) : StoredBits := cellGet 0#22 w.val s.upsets

/-- The cells of word `w` with a lasting fault. -/
def State.stuck (s : State) (w : MemIx) : Stuck := cellGet Stuck.none w.val s.stuckCells

/-- The bits in which a read of a word differs from the codeword written: the upset bits, and those cells with a lasting
fault whose level is not the bit written. -/
def errorBits (d : Word) (upset : StoredBits) (k : Stuck) : StoredBits :=
  if k.cells = 0#22 then upset else (upset &&& ~~~k.cells) ||| ((codeword d ^^^ k.level) &&& k.cells)

/-- How many of the 22 bits are set. -/
def bitCount (m : StoredBits) : Nat := (List.range 22).countP (fun i => m.getLsbD i)

/-- The data bits as read from a word whose error bits are `m`. -/
def dataRead (d : Word) (m : StoredBits) : Word := d ^^^ m.setWidth 16

/-- The finding of R114 on a word written as `d` whose error bits are `m`. -/
def findingOf (d : Word) (m : StoredBits) : Finding :=
  match bitCount m with
  | 0 => .noError
  | 1 => .corrected d
  | 2 => .uncorrectable
  | _ => Config.multiBitFinding (dataRead d m) (Config.checkBits d ^^^ m.extractLsb' 16 6)

/-- The error bits of word `w` as it stands. -/
def State.wordErrors (s : State) (w : MemIx) : StoredBits := errorBits (s.written w) (s.upset w) (s.stuck w)

/-- The finding a read of word `w` makes (R114). -/
def State.finding (s : State) (w : MemIx) : Finding := findingOf (s.written w) (s.wordErrors w)

/-- What Buffer Memory has after reading word `w`: the corrected data bits, or the data bits as read (R114). -/
def State.readData (s : State) (w : MemIx) : Word :=
  match s.finding w with
  | .corrected d => d
  | .noError | .uncorrectable => dataRead (s.written w) (s.wordErrors w)

/-- Word `w` is stored with data bits `d` and check bits computed afresh from them (R114). A lasting fault stays. -/
def State.storeWord (s : State) (w : MemIx) (d : Word) : State :=
  { s with
    mem := cellSet 0#8 (2 * w.val + 1) (d.extractLsb' 8 8) (cellSet 0#8 (2 * w.val) (d.extractLsb' 0 8) s.mem)
    upsets := cellSet 0#22 w.val 0#22 s.upsets }

/-- Every word of block `b` is stored as 0x0000 with a valid code (R124). -/
def State.zeroBlock (s : State) (b : BlockIx) : State :=
  { s with
    mem := s.mem.filter (fun e => e.1 / 256 ≠ b.val)
    upsets := s.upsets.filter (fun e => e.1 / 128 ≠ b.val) }

/-- Every word of buffer memory is stored as 0x0000 with a valid code (R36). -/
def State.zeroMemory (s : State) : State := { s with mem := [], upsets := [] }

/-! ### The block test (R124) -/

/-- The three patterns of a block test, in order, each with the place of its pass. -/
def testPatterns : List (Nat × Word) := [(0, 0x5555#16), (1, 0xAAAA#16), (2, 0xFFFF#16)]

/-- The operations of a block test: of each of its 128 words three writes of a pattern, three read-backs and the closing
write. -/
def testOps : Nat := 896

/-- How many of the seven operations on word `v` of the block are among the first `m` of its test. The test takes the words
in ascending order, 128 operations a round, and its rounds in the order of R124: pass 1 writes and reads back, pass 2, pass
3, and the closing write. So operation 2i of a word is the write of pattern i, operation 2i + 1 its read-back, and operation
6 the closing write. -/
def opsDone (v m : Nat) : Nat := (List.range 7).countP (fun j => decide (128 * j + v < m))

/-- How many of the seven operations on its word were done when this upset fell. -/
def Disturbance.opsDone (d : Disturbance) : Nat := Machine.opsDone (d.word.val % 128) d.moment

/-- The bits of word `w` that the upsets of `ds` that fell after `n` of the word's operations, and before the next, leave
changed. -/
def flipsAfter (ds : List Disturbance) (w : MemIx) (n : Nat) : StoredBits :=
  ds.foldl (fun m d => if d.word = w ∧ d.opsDone = n then m ^^^ d.flips else m) 0#22

/-- The cells of word `w` that failed only once the first `n` of the word's operations were done. -/
def cellsSince (ds : List Disturbance) (w : MemIx) (n : Nat) : StoredBits :=
  ds.foldl (fun m d => if d.word = w ∧ n ≤ d.opsDone then m ||| d.cells else m) 0#22

/-- The lasting faults but those of the cells `cells`. -/
def Stuck.without (k : Stuck) (cells : StoredBits) : Stuck := ⟨k.cells &&& ~~~cells, k.level &&& ~~~cells⟩

/-- A read-back succeeds when it finds no error and its data are the pattern. `flips` are the bits upset since the pattern
was stored. -/
def readBackOk (flips : StoredBits) (k : Stuck) (pattern : Word) : Bool :=
  let m := errorBits pattern flips k
  findingOf pattern m == .noError && dataRead pattern m == pattern

/-- The three read-backs of word `w` succeed in a test that the upsets `ds` disturb: read-back i sees the bits upset between
the write of its pattern and itself, and the cells that had failed by then. -/
def State.wordPasses (s : State) (ds : List Disturbance) (w : MemIx) : Bool :=
  testPatterns.all fun (i, pattern) =>
    readBackOk (flipsAfter ds w (2 * i + 1)) ((s.stuck w).without (cellsSince ds w (2 * i + 2))) pattern

/-- Word `v` of block `b` (R36). -/
def blockWord (b : BlockIx) (v : Fin 128) : MemIx := ⟨b.val * 128 + v.val, by omega⟩

/-- The result of the block test of block `b` that the upsets `ds` disturb: all 384 read-backs succeed (R124). -/
def State.blockTestPasses (s : State) (b : BlockIx) (ds : List Disturbance) : Bool :=
  (List.finRange 128).all fun v => s.wordPasses ds (blockWord b v)

/-- The bits `flips` of word `w` are upset: each that was as stored differs from it now, and each that differed does not. -/
def State.flipBits (s : State) (w : MemIx) (flips : StoredBits) : State :=
  { s with upsets := cellSet 0#22 w.val (s.upset w ^^^ flips) s.upsets }

/-- What a block test leaves of block `b`: every word holds 0x0000 with a valid code (R124), but for the bits upset after
the closing write of their word. -/
def State.closeTest (s : State) (b : BlockIx) (ds : List Disturbance) : State :=
  ds.foldl (fun s d => if d.opsDone = 7 then s.flipBits d.word d.flips else s) (s.zeroBlock b)

/-! ### Upsets (R114, 7.5) -/

/-- A word's lasting faults with those of the cells `cells` added at `level`; a cell that has failed keeps the level it is
stuck at (assumption 16). -/
def Stuck.add (k : Stuck) (cells level : StoredBits) : Stuck :=
  ⟨k.cells ||| cells, (k.level &&& k.cells) ||| (level &&& cells &&& ~~~k.cells)⟩

/-- The moment of the latest upset during the test, 0 before there is one. -/
def Retest.lastMoment (t : Retest) : Nat := t.disturbed.getLast?.elim 0 (·.moment)

/-- An upset of word `w` of the block under test is noted, at a moment between that of the latest upset and the end of the
test that `x` chooses: R124 does not say where within a test an upset falls, and `x` is a free value (DESIGN CHOICE,
assumption 8). -/
def Retest.disturb (t : Retest) (w : MemIx) (flips cells : StoredBits) (x : Word) : Retest :=
  { t with
    disturbed := t.disturbed ++
      [⟨w, flips, cells, t.lastMoment + x.toNat % (testOps + 1 - t.lastMoment)⟩] }

end Sys2Proof.Machine
end

