-- ==== Sys2Proof/Machine/Operands.lean ====
section
/-!
DEFINITION. The operand forms of the M416: handles (R14), the request record in the staging words (R129, R177), the codes of
the names the part reports and the layouts of its event records (11.3, R178), and the ordered checks of a request.
-/

namespace Sys2Proof.Machine

/-! ### Ports and codes (11.3) -/

/-- The code of a port in records: 1 for A to 4 for D. -/
def portCode : Port → Nat
  | .A => 1 | .B => 2 | .C => 3 | .D => 4

/-- The port a peer port field names: none for 0 and for 5 to 7 (R177). -/
def portOf (x : BitVec 3) : Option Port :=
  match x.toNat with
  | 1 => some .A | 2 => some .B | 3 => some .C | 4 => some .D
  | _ => none

/-- The code of a channel kind in records. -/
def chanKindCode : ChanKind → Nat
  | .oneWay => 1 | .roundTrip => 2

/-- The channel kind a channel kind field names: none for 0 and 3 (R177). -/
def chanKindOf (x : BitVec 2) : Option ChanKind :=
  match x.toNat with
  | 1 => some .oneWay | 2 => some .roundTrip
  | _ => none

/-- The code of a descriptor outcome. -/
def outcomeCode : BufOutcome → Nat
  | .replied => 1 | .undelivered => 2 | .revoked => 3

/-- The code of a request kind. -/
def kindCode : ReqKind → Nat
  | .attach => 1 | .detach => 2 | .cancel => 3 | .allocate => 4 | .free => 5 | .refill => 6 | .grant => 7
  | .retest => 8 | .queryPool => 9 | .offer => 10 | .withdraw => 11 | .accept => 12 | .reject => 13 | .close => 14
  | .post => 15 | .take => 16 | .collect => 17 | .release => 18 | .returnBuffer => 19 | .renew => 20
  | .queryChannel => 21 | .mapSlot => 22 | .unmapSlot => 23

/-- The request kind a kind field names: none for 0 and for 24 to 255 (R131, R177). -/
def kindOf (x : BitVec 8) : Option ReqKind :=
  match x.toNat with
  | 1 => some .attach | 2 => some .detach | 3 => some .cancel | 4 => some .allocate | 5 => some .free
  | 6 => some .refill | 7 => some .grant | 8 => some .retest | 9 => some .queryPool | 10 => some .offer
  | 11 => some .withdraw | 12 => some .accept | 13 => some .reject | 14 => some .close | 15 => some .post
  | 16 => some .take | 17 => some .collect | 18 => some .release | 19 => some .returnBuffer | 20 => some .renew
  | 21 => some .queryChannel | 22 => some .mapSlot | 23 => some .unmapSlot
  | _ => none

/-- The code of a result. -/
def resultCode : ResultCode → Nat
  | .done => 1 | .cancelled => 2 | .timedOut => 3 | .closed => 4 | .rejected => 5 | .expired => 6 | .withdrawn => 7
  | .peerGone => 8 | .badRequest => 9 | .staleHandle => 10 | .notHolder => 11 | .wrongState => 12
  | .notEndpoint => 13 | .noChannel => 14 | .wrongKind => 15 | .full => 16 | .empty => 17 | .overQuota => 18
  | .noBuffer => 19 | .channelBusy => 20 | .peerOffline => 21 | .noOffer => 22 | .range => 23 | .renewLimit => 24
  | .busy => 25 | .slotInUse => 26 | .notMapped => 27 | .notWaiting => 28

/-- The code of a notice kind. -/
def noticeCode : NoticeKind → Nat
  | .offerArrived => 1 | .channelClosing => 2 | .channelUnbound => 3 | .peerDetached => 4 | .arrival => 5
  | .returnArrival => 6 | .revoked => 7 | .bounced => 8 | .quotaGranted => 9 | .accessFault => 10
  | .dataDamaged => 11

/-- The eight notice kinds that have a channel (R153). -/
def noticeHasChannel : NoticeKind → Bool
  | .quotaGranted | .accessFault | .dataDamaged => false
  | .offerArrived | .channelClosing | .channelUnbound | .peerDetached | .arrival | .returnArrival | .revoked
  | .bounced => true

/-- The word a submit read returns for an answer (11.3). -/
def answerCode : SubmitAnswer → Word
  | .notReady => 1 | .reclaiming => 2 | .notOnline => 3 | .badKind => 4 | .tagInUse => 5 | .noSlot => 6
  | .noRoom => 7 | .accepted => 8

/-- The code of a direction (R176). -/
def directionCode : Direction → Nat
  | .read => 0 | .write => 1

/-- The code of an aperture fault kind (R176). -/
def faultCode : FaultKind → Nat
  | .unmapped => 1 | .stale => 2 | .outOfExtent => 3 | .writeDenied => 4

/-! ### Bit fields -/

/-- A word that is `v`, cut to `width` bits, in the bits from `lsb` upwards. -/
def field (lsb width v : Nat) : Word := BitVec.ofNat 16 ((v % 2 ^ width) * 2 ^ lsb)

/-- A count as a word. -/
def word (n : Nat) : Word := BitVec.ofNat 16 n

/-- 1 for set and 0 for clear. -/
def flag (b : Bool) : Nat := if b then 1 else 0

/-! ### Handles (R14) -/

/-- The descriptor index of a handle: bits 6 to 0. -/
def handleIx (h : Word) : DescIx := ⟨h.toNat % 128, Nat.mod_lt _ (by decide)⟩

/-- The generation of a handle: bits 15 to 8. -/
def handleGen (h : Word) : BitVec 8 := h.extractLsb' 8 8

/-- Bit 7 of a handle, zero in every handle the part issues. -/
def handleBad (h : Word) : Bool := h.getLsbD 7

/-- The handle of descriptor `i` at generation `g`. -/
def handleOf (i : DescIx) (g : BitVec 8) : Word := word (g.toNat * 256 + i.val)

/-! ### The request record (R129, R177) -/

/-- The kind field of the staging words: bits 7 to 0 of word 0. -/
def stagedKind (w : Vector Word 8) : BitVec 8 := w[0].extractLsb' 0 8

/-- The tag field of the staging words: bits 15 to 8 of word 0. -/
def stagedTag (w : Vector Word 8) : Tag := w[0].extractLsb' 8 8

/-- The request record the eight staging words hold, for a kind already read. -/
def stagedRequest (w : Vector Word 8) (kind : ReqKind) : Request where
  kind       := kind
  tag        := stagedTag w
  handle     := w[1]
  channel    := w[2].extractLsb' 0 5
  peer       := w[2].extractLsb' 5 3
  chanKind   := w[2].extractLsb' 8 2
  slot       := w[2].extractLsb' 10 6
  count      := w[3]
  length     := w[4]
  replyOpen  := w[5]
  replyClose := w[6]
  limit      := w[7]

/-- The channel field is outside 0 to 15 (R129). -/
def Request.channelBad (r : Request) : Bool := decide (16 ≤ r.channel.toNat)

/-- The channel a request names, read once its range has been checked. -/
def Request.chan (r : Request) : ChanIx := ⟨r.channel.toNat % 16, Nat.mod_lt _ (by decide)⟩

/-- The slot field is outside 0 to 7 (R101, R103). -/
def Request.slotBad (r : Request) : Bool := decide (8 ≤ r.slot.toNat)

/-- The aperture slot a request names, read once its range has been checked. -/
def Request.slotIx (r : Request) : Fin 8 := ⟨r.slot.toNat % 8, Nat.mod_lt _ (by decide)⟩

/-- A wait limit of 1 to 65534 starts a timer of that many ticks; 65535 waits with no timer (R27, R68, R80). -/
def waitTimer (limit : Word) : Option Timer :=
  if limit = 0xFFFF#16 then none else some (.running limit.toNat)

/-- A channel number as a record's channel field. -/
def chanField (c : ChanIx) : BitVec 4 := BitVec.ofNat 4 c.val

/-! ### Ordered checks (R140) -/

/-- The refusal of the first check that fails, in the order of the list; none if every check passes. -/
def firstFail : List (Bool × ResultCode) → Option ResultCode
  | [] => none
  | (fails, code) :: rest => if fails then some code else firstFail rest

/-! ### Event records as words (R178) -/

/-- Word 1 of a record: request kind, channel, block count and damaged flag. -/
def recordWord1 (kind : Nat) (v : Vals) : Word :=
  field 0 5 kind ||| field 5 4 v.channel.toNat ||| field 10 5 v.blockCount ||| field 15 1 (flag v.damaged)

/-- The eight words of an event record. -/
def EventRecord.words : EventRecord → List Word
  | .completion result tag kind v stamp =>
    [field 0 2 1 ||| field 2 6 (resultCode result) ||| field 8 8 tag.toNat, recordWord1 (kindCode kind) v, stamp,
      v.v0, v.v1, v.v2, v.v3, v.v4]
  | .notice kind v stamp =>
    [field 0 2 2 ||| field 2 6 (noticeCode kind), field 5 4 v.channel.toNat, stamp, v.v0, v.v1, v.v2, v.v3, 0#16]
  | .summary kinds channels stamp =>
    [field 0 2 3, 0#16, stamp, channels, kinds.setWidth 16, 0#16, 0#16, 0#16]

/-- V0 of an ACCEPT completion and of an OFFER_ARRIVED notice: producer, kind, depth limit and renew limit (R178). -/
def offerWord (p : ChanParams) : Word :=
  field 0 3 (portCode p.producer) ||| field 4 2 (chanKindCode p.kind) ||| field 6 6 p.depthLimit
    ||| field 12 4 p.renewLimit

end Sys2Proof.Machine
end

