-- ==== Sys2Proof/Machine/Ops.lean ====
section
/-!
DEFINITION. The named operations the commands share: access to the records, event records and notices (chapters 8 and 9),
descriptor transitions (chapter 1), the pool (chapter 2), channels and the return side (chapters 3 and 4), revocation
(chapter 5), the aperture check (chapter 6), and reclaim (chapter 10).
-/

namespace Sys2Proof.Machine

/-! ### Access to the records -/

/-- The item of port `p`. -/
def PerPort.get {α : Type} (x : PerPort α) : Port → α
  | .A => x.a | .B => x.b | .C => x.c | .D => x.d

/-- The items with `v` for port `p`. -/
def PerPort.set {α : Type} (x : PerPort α) (p : Port) (v : α) : PerPort α :=
  match p with
  | .A => { x with a := v }
  | .B => { x with b := v }
  | .C => { x with c := v }
  | .D => { x with d := v }

/-- The HPI and Aperture Table of port `p`. -/
def State.hpi (s : State) (p : Port) : Hpi := s.ports.get p

/-- Port `p`'s HPI becomes `h`. -/
def State.setHpi (s : State) (p : Port) (h : Hpi) : State := { s with ports := s.ports.set p h }

/-- Descriptor record `i`. -/
def State.desc (s : State) (i : DescIx) : Desc := s.descs[i]

/-- Descriptor record `i` becomes `d`. -/
def State.setDesc (s : State) (i : DescIx) (d : Desc) : State := { s with descs := s.descs.set i d }

/-- Descriptor `i` makes a transition that keeps its generation. -/
def State.setLife (s : State) (i : DescIx) (l : Life) : State :=
  s.setDesc i { s.desc i with life := l }

/-- Block record `b`. -/
def State.block (s : State) (b : BlockIx) : BlockRec := s.blocks[b]

/-- Block record `b` becomes `x`. -/
def State.setBlock (s : State) (b : BlockIx) (x : BlockRec) : State := { s with blocks := s.blocks.set b x }

/-- Channel record `c`. -/
def State.chan (s : State) (c : ChanIx) : Chan := s.chans[c]

/-- Channel record `c` becomes `x`. -/
def State.setChan (s : State) (c : ChanIx) (x : Chan) : State := { s with chans := s.chans.set c x }

/-- The quota of port `p` becomes `n`. -/
def State.setQuota (s : State) (p : Port) (n : Nat) : State := { s with quotas := s.quotas.set p n }

/-- Port `p` is ONLINE. -/
def State.online (s : State) (p : Port) : Bool := (s.hpi p).state == .online

/-- The word a read of port `p` drives on its data lines (R172). -/
def State.driveData (s : State) (p : Port) (w : Word) : State := s.setHpi p { s.hpi p with dataOut := w }

/-- Port `p`'s bus accesses are taken: neither nRESET nor its port reset input is asserted (R172). -/
def State.busTaken (s : State) (p : Port) : Bool := !s.resetIn && !(s.hpi p).resetIn

/-- The number of outstanding requests (R136). -/
def Hpi.outstanding (h : Hpi) : Nat := h.table.length

/-- The number of occupied event-queue entries (R149). -/
def Hpi.occupied (h : Hpi) : Nat := h.queue.length

/-- The notice summary is empty when both its sets are (R154). -/
def Hpi.summaryEmpty (h : Hpi) : Bool := h.sumKinds == 0#11 && h.sumChannels == 0#16

/-! ### Free values -/

/-- The free value the next draw gives. -/
def State.freeValue (s : State) : Word := Config.freeWord s.freeDraws

/-- A free value has been drawn. -/
def State.drawn (s : State) : State := { s with freeDraws := s.freeDraws + 1 }

/-! ### Event records (R86, R142, R152, R154) -/

/-- The stamp of a record written now: the low 16 bits of the tick counter (R86). -/
def State.stamp (s : State) : Word := s.ticks.setWidth 16

/-- A record is written at the tail of `p`'s event queue. -/
def State.writeRecord (s : State) (p : Port) (r : EventRecord) : State :=
  s.setHpi p { s.hpi p with queue := (s.hpi p).queue ++ [r] }

/-- The request of `p` with tag `tag` completes: its record takes its reservation at the tail of the queue and its entry
leaves the table (R142). Nothing is written for a request no longer in the table (R148). -/
def State.complete (s : State) (p : Port) (tag : Tag) (result : ResultCode) (v : Vals) : State :=
  match (s.hpi p).table.find? (fun e => e.req.tag == tag) with
  | none => s
  | some e =>
    let h := s.hpi p
    s.setHpi p { h with
      table := h.table.eraseP (fun e => e.req.tag == tag)
      queue := h.queue ++ [.completion result tag e.req.kind v s.stamp] }

/-- The request of `p` with tag `tag` is left WAITING or RUNNING (R139). -/
def State.leaveOutstanding (s : State) (p : Port) (tag : Tag) (x : EntryState) : State :=
  s.setHpi p { s.hpi p with
    table := (s.hpi p).table.map (fun e => if e.req.tag = tag then { e with state := x } else e) }

/-- A notice joins the notice summary: its kind, and its channel if it has one (R154). -/
def Hpi.fold (h : Hpi) (kind : NoticeKind) (channel : BitVec 4) : Hpi :=
  { h with
    sumKinds := h.sumKinds ||| (1#11 <<< (noticeCode kind - 1))
    sumChannels := if noticeHasChannel kind then h.sumChannels ||| (1#16 <<< channel.toNat) else h.sumChannels }

/-- A notice is raised for port `p`: discarded unless `p` is ONLINE, written into a free entry if the summary is empty and
there is one, and folded otherwise (R152). -/
def State.notice (s : State) (p : Port) (kind : NoticeKind) (v : Vals) : State :=
  let h := s.hpi p
  if s.online p then
    if h.summaryEmpty && decide (h.occupied + h.outstanding < 32) then
      s.writeRecord p (.notice kind v s.stamp)
    else s.setHpi p (h.fold kind v.channel)
  else s

/-- Requests of `p` complete alike, in list order. -/
def State.completeAll (s : State) (p : Port) (ws : List Wait) (result : ResultCode) (v : Vals) : State :=
  ws.foldl (fun s w => s.complete p w.tag result v) s

/-- The presented request `r` of `p` is refused with a completion that carries its channel (R43, R60, R66, R78). A channel
outside 0 to 15 has no place in the record's four-bit field and the spec does not say what stands there: a free value
(DESIGN CHOICE, assumption 5). -/
def State.refuseOnChannel (s : State) (p : Port) (r : Request) (code : ResultCode) : State :=
  if r.channelBad then s.drawn.complete p r.tag code { channel := s.freeValue.setWidth 4 }
  else s.complete p r.tag code { channel := chanField r.chan }

/-! ### Presentation (R139) -/

/-- The oldest PENDING request of `p`. -/
def State.nextPending (s : State) (p : Port) : Option Request :=
  ((s.hpi p).table.find? (fun e => e.state == .pending)).map (·.req)

/-- The oldest PENDING request of the ONLINE port `p` is presented to the unit that owns its kind. If it is of another kind,
or there is none, this presentation does not occur and nothing changes (DEDUCED, assumption 7). -/
def State.present (s : State) (kind : ReqKind) (p : Port) (settle : Request → Port → State → State) : State :=
  match s.nextPending p with
  | none => s
  | some r => if s.online p && r.kind == kind then settle r p s else s

/-! ### Reading descriptors (R1, R4, R14) -/

/-- The name of a descriptor's state. -/
def Desc.state (d : Desc) : DescState :=
  match d.life with
  | .free => .free
  | .filling _ => .filling
  | .queued _ _ => .queued
  | .held _ _ _ _ _ => .held
  | .returning _ _ _ => .returning
  | .collected _ _ _ => .collected

/-- The origin, block list and damaged flag, present in every state but FREE. -/
def Desc.buf (d : Desc) : Option Buf :=
  match d.life with
  | .free => none
  | .filling b | .queued b _ | .held b _ _ _ _ | .returning b _ _ | .collected b _ _ => some b

/-- The length, channel, sequence and reply range, present from POST to REFILL. -/
def Desc.traffic (d : Desc) : Option Traffic :=
  match d.life with
  | .free | .filling _ => none
  | .queued _ t | .held _ t _ _ _ | .returning _ t _ | .collected _ t _ => some t

/-- The holder (R4). -/
def Desc.holder (d : Desc) : Option Port :=
  match d.life with
  | .filling b | .collected b _ _ => some b.origin
  | .held _ _ p _ _ => some p
  | .free | .queued _ _ | .returning _ _ _ => none

/-- The block list, empty when FREE. -/
def Desc.blockList (d : Desc) : List BlockIx :=
  match d.buf with
  | none => []
  | some b => b.blocks

/-- The number of blocks. -/
def Desc.blockCount (d : Desc) : Nat := d.blockList.length

/-- The extent: the block count times 256 (R5). -/
def Desc.extent (d : Desc) : Nat := d.blockCount * 256

/-- The damaged flag, clear when FREE. -/
def Desc.damaged (d : Desc) : Bool :=
  match d.buf with
  | none => false
  | some b => b.damaged

/-- The handle the part issues for descriptor `i` now (R14). -/
def State.handle (s : State) (i : DescIx) : Word := handleOf i (s.desc i).generation

/-- The handle is stale: its descriptor is FREE or of another generation (R15). -/
def State.stale (s : State) (h : Word) : Bool :=
  (s.desc (handleIx h)).state == .free || (s.desc (handleIx h)).generation != handleGen h

/-- A mapping of handle `h` by port `p` is live (R100). -/
def State.live (s : State) (p : Port) (h : Word) : Bool :=
  (s.desc (handleIx h)).generation == handleGen h && (s.desc (handleIx h)).holder == some p

/-- The four handle checks of R15, in order; `bad` is the kind's field range check. -/
def State.handleChecks (s : State) (p : Port) (h : Word) (bad : Bool) (accepts : List DescState) :
    List (Bool × ResultCode) :=
  [(bad, .badRequest), (s.stale h, .staleHandle), ((s.desc (handleIx h)).holder != some p, .notHolder),
    (!accepts.contains (s.desc (handleIx h)).state, .wrongState)]

/-! ### The pool (R3, R12, R13, R18 to R31) -/

/-- charged(p): the blocks of the non-FREE descriptors whose origin is `p` (R3). -/
def State.charged (s : State) (p : Port) : Nat :=
  (s.descs.toList.map fun d =>
    match d.buf with
    | none => 0
    | some b => if b.origin = p then b.blocks.length else 0).sum

/-- The waiting demand of `p` (R24). -/
def State.waitingDemand (s : State) (p : Port) : Nat :=
  (s.allocWaits.map fun e => if e.port = p then e.count else 0).sum

/-- The FREE descriptor with the lowest index (R13). -/
def State.lowestFree (s : State) : Option DescIx :=
  (List.finRange 128).find? (fun i => (s.desc i).state == .free)

/-- The number of FREE descriptors (R35). -/
def State.freeDescs (s : State) : Nat := s.descs.toList.countP (fun d => d.state == .free)

/-- A re-examination of the allocation wait list is called for (R29). -/
def State.callReexam (s : State) : State := { s with reexamsDue := s.reexamsDue + 1 }

/-- A freed descriptor's block goes to the tail of the free list if unmarked, and of the retired list if suspect (R21). -/
def State.handOver (s : State) (b : BlockIx) : State :=
  if (s.block b).suspect then { s.setBlock b ⟨.retired, false⟩ with retired := s.retired ++ [b] }
  else { s.setBlock b ⟨.free, false⟩ with freeList := s.freeList ++ [b] }

/-- Descriptor `i` becomes FREE: its generation rises, its blocks are handed over in list order, its other fields are
cleared (R12), and one re-examination is called for (R21, R29). -/
def State.freeDesc (s : State) (i : DescIx) : State :=
  match (s.desc i).buf with
  | none => s
  | some b => ((b.blocks.foldl State.handOver s).setDesc i ⟨(s.desc i).generation + 1#8, .free⟩).callReexam

/-- FREE descriptor `i` is allocated to `p` with the first `n` blocks of the free list (R13, R19). -/
def State.allocTo (s : State) (p : Port) (n : Nat) (i : DescIx) : State :=
  let bs := s.freeList.take n
  let s1 := bs.foldl (fun s b => s.setBlock b ⟨.inUse, false⟩) { s with freeList := s.freeList.drop n }
  s1.setLife i (.filling ⟨p, bs, false⟩)

/-- An ALLOCATE of `p` is satisfied with descriptor `i` and completes DONE with its handle and block count (R26, R28). -/
def State.satisfy (s : State) (p : Port) (tag : Tag) (n : Nat) (i : DescIx) : State :=
  (s.allocTo p n i).complete p tag .done { blockCount := n, v0 := s.handle i }

/-- The descriptor with which `n` blocks can be given now: the free list holds them and a FREE descriptor exists (R28). -/
def State.canGive (s : State) (n : Nat) : Option DescIx :=
  if n ≤ s.freeList.length then s.lowestFree else none

/-- One re-examination of the allocation wait list: its head is served while it can be served (R28). `fuel` bounds the
entries served by the length of the list. -/
def State.serveHeads : Nat → State → State
  | 0, s => s
  | fuel + 1, s =>
    match s.allocWaits with
    | [] => s
    | e :: rest =>
      match s.canGive e.count with
      | none => s
      | some i => State.serveHeads fuel ({ s with allocWaits := rest }.satisfy e.port e.tag e.count i)

/-- The entry of `p` with tag `tag` stands in the allocation wait list. -/
def AllocWait.isOf (p : Port) (tag : Tag) (e : AllocWait) : Bool := decide (e.port = p) && e.tag == tag

/-- An entry of `p` leaves the allocation wait list unserved; if it was the head, a re-examination is called for
(R30, R31). -/
def State.dropAllocWait (s : State) (p : Port) (tag : Tag) : State :=
  let s1 := { s with allocWaits := s.allocWaits.eraseP (AllocWait.isOf p tag) }
  if s.allocWaits.head?.any (AllocWait.isOf p tag) then s1.callReexam else s1

/-! ### Reading channels (R40, R42) -/

/-- The name of a channel's state. -/
def Chan.state (x : Chan) : ChanState :=
  match x with
  | .unbound => .unbound
  | .offered _ _ _ => .offered
  | .active a => if a.closedProducer || a.closedConsumer then .closing else .opened

/-- The fields an OFFER set, present unless UNBOUND. -/
def Chan.params? (x : Chan) : Option ChanParams :=
  match x with
  | .unbound => none
  | .offered p _ _ => some p
  | .active a => some a.params

/-- The fields of OPEN and CLOSING. -/
def Chan.active? (x : Chan) : Option Active :=
  match x with
  | .active a => some a
  | .unbound | .offered _ _ _ => none

/-- Port `p` is the channel's producer. -/
def Chan.producedBy (x : Chan) (p : Port) : Bool := x.params?.any (fun m => decide (m.producer = p))

/-- Port `p` is the channel's consumer. -/
def Chan.consumedBy (x : Chan) (p : Port) : Bool := x.params?.any (fun m => decide (m.consumer = p))

/-- The channel is of this kind. -/
def Chan.isKind (x : Chan) (k : ChanKind) : Bool := x.params?.any (fun m => decide (m.kind = k))

/-- The descriptor is HELD on channel `c`. -/
def Desc.heldOn (d : Desc) (c : ChanIx) : Bool :=
  d.state == .held && d.traffic.any (fun t => decide (t.channel = c))

/-- The consumer-held count (R42). -/
def State.heldCount (s : State) (c : ChanIx) : Nat := s.descs.toList.countP (fun d => d.heldOn c)

/-- The length of the forward queue. -/
def State.forwardCount (s : State) (c : ChanIx) : Nat :=
  match (s.chan c).active? with
  | none => 0
  | some a => a.forward.length

/-- The length of the return queue. -/
def State.returnCount (s : State) (c : ChanIx) : Nat :=
  match (s.chan c).active? with
  | none => 0
  | some a => a.returns.length

/-- The in-transit count (R42). -/
def State.inTransit (s : State) (c : ChanIx) : Nat := s.forwardCount c + s.heldCount c + s.returnCount c

/-! ### Completion values that carry a buffer (R67, R79) -/

/-- The values of a TAKE completion: those of descriptor `i`, taken from a channel of producer `producer` (R67, R178). -/
def State.takeVals (s : State) (i : DescIx) (b : Buf) (t : Traffic) (producer : Port) : Vals where
  channel    := chanField t.channel
  blockCount := b.blocks.length
  damaged    := b.damaged
  v0         := s.handle i
  v1         := t.sequence
  v2         := field 0 13 t.length ||| field 13 3 (portCode producer)
  v3         := word (t.reply.elim 0 (·.1))
  v4         := word (t.reply.elim 0 (·.2))

/-- The values of a COLLECT completion (R79, R178). -/
def State.collectVals (s : State) (i : DescIx) (b : Buf) (t : Traffic) (r : Came) : Vals where
  channel    := chanField t.channel
  blockCount := b.blocks.length
  damaged    := b.damaged
  v0         := s.handle i
  v1         := t.sequence
  v2         := field 0 13 t.length ||| field 14 2 (outcomeCode r.outcome)
  v3         := word (r.replyLength.getD 0)

/-! ### Movement on channels (R8, R53, R54, R56, R63, R67, R73, R74) -/

/-- The hold timer a buffer starts with on a channel of this hold limit: none for 0 (R8). -/
def holdTimer (limit : Nat) : Option Timer := if limit = 0 then none else some (.running limit)

/-- Descriptor `i` becomes HELD by the consumer of the channel, its hold fields set as R8 states, and the consumer's TAKE
with tag `tag` completes DONE (R63, R67). -/
def State.deliver (s : State) (m : ChanParams) (tag : Tag) (i : DescIx) (b : Buf) (t : Traffic) : State :=
  (s.setLife i (.held b t m.consumer (holdTimer m.holdLimit) 0)).complete m.consumer tag .done
    (s.takeVals i b t m.producer)

/-- Descriptor `i` arrives at the return side of channel `c`: the oldest waiting COLLECT receives it, or it joins the tail
of the return queue (R73). -/
def State.arrive (s : State) (c : ChanIx) (i : DescIx) (b : Buf) (t : Traffic) (r : Came) : State :=
  match (s.chan c).active? with
  | none => s
  | some a =>
    match a.collectWaits with
    | w :: ws =>
      ((s.setChan c (.active { a with collectWaits := ws })).setLife i (.collected b t r)).complete
        a.params.producer w.tag .done (s.collectVals i b t r)
    | [] => (s.setChan c (.active { a with returns := a.returns ++ [i] })).setLife i (.returning b t r)

/-- RETURN_ARRIVAL is raised when the event leaves the return queue of `c` non-empty after finding it empty (R74). -/
def State.noticeReturns (s : State) (c : ChanIx) (wasEmpty : Bool) : State :=
  match (s.chan c).active? with
  | none => s
  | some a =>
    if wasEmpty && !a.returns.isEmpty then s.notice a.params.producer .returnArrival { channel := chanField c } else s

/-- Channel `c` unbinds: its waiting COLLECTs complete CLOSED, it becomes UNBOUND, and each ONLINE end receives
CHANNEL_UNBOUND (R56). -/
def State.unbind (s : State) (c : ChanIx) : State :=
  match (s.chan c).active? with
  | none => s
  | some a =>
    let v : Vals := { channel := chanField c }
    (((s.completeAll a.params.producer a.collectWaits .closed v).setChan c .unbound).notice a.params.producer
      .channelUnbound v).notice a.params.consumer .channelUnbound v

/-- A CLOSING channel whose in-transit count is 0 unbinds, as the last part of an event (R56). -/
def State.unbindIfDrained (s : State) (c : ChanIx) : State :=
  if (s.chan c).state == .closing && s.inTransit c == 0 then s.unbind c else s

/-- A close by the producer, beyond its flag: the consumer's waiting TAKEs complete CLOSED (R52). -/
def State.producerClose (s : State) (c : ChanIx) : State :=
  match (s.chan c).active? with
  | none => s
  | some a =>
    (s.setChan c (.active { a with takeWaits := [] })).completeAll a.params.consumer a.takeWaits .closed
      { channel := chanField c }

/-- One descriptor of a bounced forward queue arrives at the return side with outcome UNDELIVERED (R54). -/
def State.bounceOne (c : ChanIx) (s : State) (i : DescIx) : State :=
  match (s.desc i).life with
  | .queued b t => s.arrive c i b t ⟨.undelivered, none⟩
  | .free | .filling _ | .held _ _ _ _ _ | .returning _ _ _ | .collected _ _ _ => s

/-- A close by the consumer, beyond its flag: its waiting TAKEs complete CLOSED and the forward queue is bounced. On a
ONE_WAY channel the buffers are freed, with BOUNCED to an ONLINE producer (R53). On a ROUND_TRIP channel they arrive at the
return side, or are freed if the producer is gone (R54). -/
def State.consumerClose (s : State) (c : ChanIx) : State :=
  match (s.chan c).active? with
  | none => s
  | some a =>
    let s1 := (s.setChan c (.active { a with takeWaits := [], forward := [] })).completeAll a.params.consumer
      a.takeWaits .closed { channel := chanField c }
    match a.params.kind with
    | .oneWay =>
      let s2 := a.forward.foldl State.freeDesc s1
      if a.forward.isEmpty then s2
      else s2.notice a.params.producer .bounced { channel := chanField c, v0 := word a.forward.length }
    | .roundTrip =>
      if s.online a.params.producer then
        (a.forward.foldl (State.bounceOne c) s1).noticeReturns c a.returns.isEmpty
      else a.forward.foldl State.freeDesc s1

/-- Port `p` closes its end of channel `c`: its closed flag is set, and R52, R53 or R54 applies (R51, R166). -/
def State.closeBy (s : State) (p : Port) (c : ChanIx) : State :=
  match (s.chan c).active? with
  | none => s
  | some a =>
    if a.params.producer = p then (s.setChan c (.active { a with closedProducer := true })).producerClose c
    else (s.setChan c (.active { a with closedConsumer := true })).consumerClose c

/-- Port `p`'s closed flag on this channel (R40). -/
def Active.closedBy (a : Active) (p : Port) : Bool :=
  if a.params.producer = p then a.closedProducer else a.closedConsumer

/-- The end of the channel that is not `p`. -/
def ChanParams.other (m : ChanParams) (p : Port) : Port := if m.producer = p then m.consumer else m.producer

/-- HELD descriptor `i` leaves its consumer on channel `t.channel` with outcome and reply length `r`, the producer being
ONLINE: it arrives at the return side, and RETURN_ARRIVAL is raised if the return queue was empty (R73, R74). -/
def State.comeBack (s : State) (i : DescIx) (b : Buf) (t : Traffic) (r : Came) : State :=
  (s.arrive t.channel i b t r).noticeReturns t.channel (s.returnCount t.channel == 0)

/-- The producer of channel `c` is ONLINE, and buffers of a ROUND_TRIP channel come back to it. -/
def State.comesBack (s : State) (c : ChanIx) : Bool :=
  (s.chan c).isKind .roundTrip && (s.chan c).params?.any (fun m => s.online m.producer)

/-- A HELD descriptor is revoked (R92, R93); `byExpiry` says that the cause is hold expiry, which raises REVOKED to an
ONLINE consumer (R94). -/
def State.revoke (s : State) (i : DescIx) (byExpiry : Bool) : State :=
  match (s.desc i).life with
  | .held b t p _ _ =>
    let s1 := if s.comesBack t.channel then s.comeBack i b t ⟨.revoked, none⟩ else s.freeDesc i
    let v : Vals := { channel := chanField t.channel, v0 := s.handle i, v1 := t.sequence }
    let s2 := if byExpiry then s1.notice p .revoked v else s1
    s2.unbindIfDrained t.channel
  | .free | .filling _ | .queued _ _ | .returning _ _ _ | .collected _ _ _ => s

/-! ### Apertures (chapter 6) -/

/-- The slot an aperture access goes through (R99). -/
def apertureSlot (addr : BitVec 14) : Fin 8 := ⟨addr.toNat / 2048 % 8, Nat.mod_lt _ (by decide)⟩

/-- The aperture offset of an access, always even (R99). -/
def apertureOffset (addr : BitVec 14) : Nat := addr.toNat % 2048 * 2

/-- What the state of a descriptor grants at offset `o` (R105). -/
def Desc.grants (d : Desc) (dir : Direction) (o : Nat) : Bool :=
  match dir, d.life with
  | .read, _ => true
  | .write, .filling _ => true
  | .write, .held _ t _ _ _ => t.reply.any (fun r => decide (r.1 ≤ o) && decide (o < r.2))
  | .write, _ => false

/-- The access check: the fault kind of the first step that fails, or the descriptor the access reaches (R104). -/
def State.accessCheck (s : State) (p : Port) (addr : BitVec 14) (dir : Direction) : Except FaultKind DescIx :=
  match (s.hpi p).apertures[apertureSlot addr] with
  | none => .error .unmapped
  | some h =>
    if !s.live p h then .error .stale
    else if (s.desc (handleIx h)).extent ≤ apertureOffset addr then .error .outOfExtent
    else if !(s.desc (handleIx h)).grants dir (apertureOffset addr) then .error .writeDenied
    else .ok (handleIx h)

/-- The slot of port `p` holds `x`. -/
def State.setSlot (s : State) (p : Port) (k : Fin 8) (x : Option Word) : State :=
  s.setHpi p { s.hpi p with apertures := (s.hpi p).apertures.set k x }

/-- A fault is offered to the fault capture record: it fills an empty record and raises ACCESS_FAULT, or sets the more flag
of a valid one (R109, R110). -/
def State.captureFault (s : State) (p : Port) (k : Fin 8) (o : Nat) (dir : Direction) (f : FaultKind) : State :=
  match (s.hpi p).capture with
  | some r => s.setHpi p { s.hpi p with capture := some { r with more := true } }
  | none =>
    (s.setHpi p { s.hpi p with capture := some ⟨k, o, dir, f, false⟩ }).notice p .accessFault
      { v0 := word k.val, v1 := word o, v2 := word (faultCode f), v3 := word (directionCode dir) }

/-- An access refused by the check: a STALE fault empties the slot, and every fault is captured (R106). -/
def State.refuseAccess (s : State) (p : Port) (addr : BitVec 14) (dir : Direction) (f : FaultKind) : State :=
  let k := apertureSlot addr
  (if f = .stale then s.setSlot p k none else s).captureFault p k (apertureOffset addr) dir f

/-- The block of the descriptor's list that holds buffer offset `o` (R5). -/
def Desc.blockAt (d : Desc) (o : Nat) : BlockIx := d.blockList.getD (o / 256) 0

/-- The word of buffer memory at buffer offset `o` (R5, R107). -/
def Desc.wordAt (d : Desc) (o : Nat) : MemIx :=
  ⟨(d.blockAt o).val * 128 + o % 256 / 2, by have := (d.blockAt o).isLt; omega⟩

/-- The damaged flag of descriptor `i` is set (R9). -/
def State.setDamaged (s : State) (i : DescIx) : State :=
  match (s.desc i).life with
  | .free => s
  | .filling b => s.setLife i (.filling { b with damaged := true })
  | .queued b t => s.setLife i (.queued { b with damaged := true } t)
  | .held b t p k n => s.setLife i (.held { b with damaged := true } t p k n)
  | .returning b t r => s.setLife i (.returning { b with damaged := true } t r)
  | .collected b t r => s.setLife i (.collected { b with damaged := true } t r)

/-- What an uncorrectable error at buffer offset `o` of descriptor `i` marks: its block is suspect and the buffer damaged;
the accessing port receives DATA_DAMAGED if the flag was clear (R117, R118, R120). `h` is the mapped handle. -/
def State.markDamage (s : State) (p : Port) (i : DescIx) (h : Word) (o : Nat) (dir : Direction) : State :=
  let b := (s.desc i).blockAt o
  let s1 := (s.setBlock b { s.block b with suspect := true }).setDamaged i
  if (s.desc i).damaged then s1
  else s1.notice p .dataDamaged { v0 := h, v1 := word (o / 256), v2 := word (directionCode dir) }

/-- A granted read at offset `o` of descriptor `i`: the word as Buffer Memory has it, written back if corrected, marked if
uncorrectable (R107, R116, R117). -/
def State.serveRead (s : State) (p : Port) (i : DescIx) (o : Nat) : State :=
  let w := (s.desc i).wordAt o
  let s1 :=
    match s.finding w with
    | .noError => s
    | .corrected d => s.storeWord w d
    | .uncorrectable => s.markDamage p i (s.handle i) o .read
  s1.driveData p (s.readData w)

/-- The word a write leaves: the bytes its strobes select from the bus, the others from `old` (R108, R128). -/
def mergeBytes (w : BusWrite) (old : Word) : Word :=
  (if w.high then w.data.extractLsb' 8 8 else old.extractLsb' 8 8)
    ++ (if w.low then w.data.extractLsb' 0 8 else old.extractLsb' 0 8)

/-- A granted write at offset `o` of descriptor `i` (R108, R115, R116, R118). -/
def State.serveWrite (s : State) (p : Port) (i : DescIx) (o : Nat) (x : BusWrite) : State :=
  let w := (s.desc i).wordAt o
  match x.low, x.high with
  | false, false => s
  | true, true => s.storeWord w x.data
  | true, false | false, true =>
    let s1 := if s.finding w = .uncorrectable then s.markDamage p i (s.handle i) o .write else s
    s1.storeWord w (mergeBytes x (s.readData w))

/-- An aperture read of port `p` (R104, R106, R107, R111). -/
def State.readAperture (s : State) (p : Port) (addr : BitVec 14) : State :=
  if s.busTaken p && s.online p then
    match s.accessCheck p addr .read with
    | .ok i => s.serveRead p i (apertureOffset addr)
    | .error f => (s.refuseAccess p addr .read f).driveData p 0#16
  else s.driveData p 0#16

/-- An aperture write of port `p` (R104, R106, R108, R111). -/
def State.writeAperture (s : State) (p : Port) (addr : BitVec 14) (x : BusWrite) : State :=
  if s.busTaken p && s.online p then
    match s.accessCheck p addr .write with
    | .ok i => s.serveWrite p i (apertureOffset addr) x
    | .error f => s.refuseAccess p addr .write f
  else s

/-! ### Reclaim (chapter 10) -/

/-- Port `p`'s own entries leave the channel's wait lists (R84). -/
def Chan.dropWaits (p : Port) (x : Chan) : Chan :=
  match x with
  | .unbound => .unbound
  | .offered m tag k => .offered m tag k
  | .active a =>
    .active { a with
      takeWaits := if a.params.consumer = p then [] else a.takeWaits
      collectWaits := if a.params.producer = p then [] else a.collectWaits }

/-- Parts 1 to 5 of a reclaim start: the port is RECLAIMING with its walk at index 0; its requests, waits, queue,
apertures, capture and staging are dropped (R164). -/
def State.dropHoldings (s : State) (p : Port) : State :=
  let s1 := s.setHpi p
    { Hpi.reset with
      state := .reclaiming 0
      resetIn := (s.hpi p).resetIn
      tickLatch := (s.hpi p).tickLatch
      dataOut := (s.hpi p).dataOut }
  let s2 :=
    { s1 with
      allocWaits := s1.allocWaits.filter (fun e => decide (e.port ≠ p))
      chans := s1.chans.map (Chan.dropWaits p)
      retest := s1.retest.map (fun t =>
        if t.requester.any (fun q => decide (q.1 = p)) then { t with requester := none } else t) }
  if s.allocWaits.head?.any (fun e => decide (e.port = p)) then s2.callReexam else s2

/-- Every descriptor of the return queue of `c` is removed and freed (R166, step 2). -/
def State.freeReturns (s : State) (c : ChanIx) : State :=
  match (s.chan c).active? with
  | none => s
  | some a => a.returns.foldl State.freeDesc (s.setChan c (.active { a with returns := [] }))

/-- Part 6 of the reclaim start of `p` for channel `c`: an OFFERED channel becomes UNBOUND (R165); an OPEN or CLOSING one is
closed, its return queue freed if `p` produces it, and it unbinds or the other end receives PEER_DETACHED (R166). -/
def State.reclaimChannel (p : Port) (s : State) (c : ChanIx) : State :=
  match s.chan c with
  | .unbound => s
  | .offered m tag _ =>
    if m.producer = p then (s.setChan c .unbound).notice m.consumer .channelUnbound { channel := chanField c }
    else if m.consumer = p then
      (s.setChan c .unbound).complete m.producer tag .peerGone
        { channel := chanField c, v0 := word (portCode m.consumer) }
    else s
  | .active a =>
    if a.params.producer = p ∨ a.params.consumer = p then
      let s1 := if a.closedBy p then s else s.closeBy p c
      let s2 := if a.params.producer = p then s1.freeReturns c else s1
      if s2.inTransit c == 0 then s2.unbind c
      else s2.notice (a.params.other p) .peerDetached { channel := chanField c, v0 := word (portCode p) }
    else s

/-- The reclaim start of port `p`, one event (R164). -/
def State.reclaimStart (s : State) (p : Port) : State :=
  (List.finRange 16).foldl (State.reclaimChannel p) (s.dropHoldings p)

/-- What the walk of `p` does at descriptor `i` (R168). -/
def State.walkAt (s : State) (p : Port) (i : DescIx) : State :=
  if (s.desc i).holder = some p then
    match (s.desc i).state with
    | .held => s.revoke i false
    | .filling | .collected => s.freeDesc i
    | .free | .queued | .returning => s
  else s

/-! ### Timers (R87) -/

/-- A timer counts one tick: the tick that would take its count from 1 to 0 makes it run out. -/
def Timer.count (k : Timer) : Timer :=
  match k with
  | .running (n + 2) => .running (n + 1)
  | .running 1 | .running 0 | .ranOut => .ranOut

/-- The hold timer of a descriptor counts one tick (R89). -/
def Desc.count (d : Desc) : Desc :=
  match d.life with
  | .held b t p k n => { d with life := .held b t p (k.map Timer.count) n }
  | .free | .filling _ | .queued _ _ | .returning _ _ _ | .collected _ _ _ => d

/-- The wait timer of an entry counts one tick. -/
def Wait.count (w : Wait) : Wait := { w with timer := w.timer.map Timer.count }

/-- The timers of a channel count one tick. -/
def Chan.count (x : Chan) : Chan :=
  match x with
  | .unbound => .unbound
  | .offered m tag k => .offered m tag k.count
  | .active a =>
    .active { a with takeWaits := a.takeWaits.map Wait.count, collectWaits := a.collectWaits.map Wait.count }

/-- The wait entry with tag `tag` has run out and its expiry has not been taken. -/
def Wait.expired (tag : Tag) (w : Wait) : Bool := w.tag == tag && w.timer == some .ranOut

end Sys2Proof.Machine
end

