-- ==== Sys2Proof/Machine/ChannelRequests.lean ====
section
/-!
DEFINITION. The requests that bind, close and query channels: OFFER, WITHDRAW, ACCEPT, REJECT, CLOSE and QUERY_CHANNEL
(chapter 3).
-/

namespace Sys2Proof.Machine

/-! ### OFFER (R43, R44) -/

/-- The field range check of an OFFER (R43, step 1). -/
def Request.offerBad (r : Request) : Bool :=
  r.channelBad || (portOf r.peer).isNone || (chanKindOf r.chanKind).isNone
    || decide (r.count.toNat < 1 ∨ 32 < r.count.toNat) || decide (15 < r.slot.toNat) || r.limit == 0#16

/-- The checks of an OFFER, in order (R43). -/
def State.offerChecks (s : State) (p : Port) (r : Request) : List (Bool × ResultCode) :=
  [(r.offerBad, .badRequest), (portOf r.peer == some p, .badRequest),
    ((s.chan r.chan).state != .unbound, .channelBusy), (!(portOf r.peer).any (fun q => s.online q), .peerOffline)]

/-- The channel becomes OFFERED with its timer, the consumer is notified, and the OFFER waits (R44). -/
def State.bindOffer (s : State) (r : Request) (m : ChanParams) : State :=
  ((s.setChan r.chan (.offered m r.tag (.running r.limit.toNat))).notice m.consumer .offerArrived
      { channel := chanField r.chan, v0 := offerWord m, v1 := word m.holdLimit, v2 := r.limit }).leaveOutstanding
    m.producer r.tag .waiting

/-- OFFER (R43, R44). -/
def settleOffer (r : Request) (p : Port) (s : State) : State :=
  match firstFail (s.offerChecks p r), chanKindOf r.chanKind, portOf r.peer with
  | none, some k, some q => s.bindOffer r ⟨k, p, q, r.count.toNat, r.length.toNat, r.slot.toNat⟩
  | some code, _, _ => s.refuseOnChannel p r code
  | none, _, _ => s.refuseOnChannel p r .badRequest

/-- OFFER (R44). -/
def execOffer (p : Port) (s : State) : Host.Outcome State Fault Refusal := .next (s.present .offer p settleOffer)

/-! ### The answers to an offer (R46 to R48) -/

/-- The values of an OFFER that was answered: its channel and consumer (R46, R144). -/
def offerVals (c : ChanIx) (m : ChanParams) : Vals :=
  { channel := chanField c, v0 := word (portCode m.consumer) }

/-- WITHDRAW by the producer: the channel unbinds, the OFFER completes WITHDRAWN ahead of the WITHDRAW, and the consumer
receives CHANNEL_UNBOUND (R48). -/
def settleWithdraw (r : Request) (p : Port) (s : State) : State :=
  if r.channelBad then s.complete p r.tag .badRequest {}
  else
    match s.chan r.chan with
    | .offered m tag _ =>
      if m.producer = p then
        (((s.setChan r.chan .unbound).complete p tag .withdrawn (offerVals r.chan m)).complete p r.tag .done
          { channel := chanField r.chan }).notice m.consumer .channelUnbound { channel := chanField r.chan }
      else s.complete p r.tag .noOffer {}
    | .unbound | .active _ => s.complete p r.tag .noOffer {}

/-- WITHDRAW (R48). -/
def execWithdraw (p : Port) (s : State) : Host.Outcome State Fault Refusal :=
  .next (s.present .withdraw p settleWithdraw)

/-- A channel just opened: both flags clear, next sequence 0, every queue and list empty (R46). -/
def Active.opened (m : ChanParams) : Active where
  params         := m
  closedProducer := false
  closedConsumer := false
  nextSequence   := 0#16
  forward        := []
  returns        := []
  takeWaits      := []
  collectWaits   := []

/-- ACCEPT by the consumer: the channel opens, the OFFER completes DONE and so does the ACCEPT (R46). -/
def settleAccept (r : Request) (p : Port) (s : State) : State :=
  if r.channelBad then s.complete p r.tag .badRequest {}
  else
    match s.chan r.chan with
    | .offered m tag _ =>
      if m.consumer = p then
        ((s.setChan r.chan (.active (Active.opened m))).complete m.producer tag .done (offerVals r.chan m)).complete
          p r.tag .done { channel := chanField r.chan, v0 := offerWord m, v1 := word m.holdLimit }
      else s.complete p r.tag .noOffer {}
    | .unbound | .active _ => s.complete p r.tag .noOffer {}

/-- ACCEPT (R46). -/
def execAccept (p : Port) (s : State) : Host.Outcome State Fault Refusal := .next (s.present .accept p settleAccept)

/-- REJECT by the consumer: the channel unbinds, the OFFER completes REJECTED and the REJECT DONE (R47). -/
def settleReject (r : Request) (p : Port) (s : State) : State :=
  if r.channelBad then s.complete p r.tag .badRequest {}
  else
    match s.chan r.chan with
    | .offered m tag _ =>
      if m.consumer = p then
        ((s.setChan r.chan .unbound).complete m.producer tag .rejected (offerVals r.chan m)).complete p r.tag .done
          { channel := chanField r.chan }
      else s.complete p r.tag .noOffer {}
    | .unbound | .active _ => s.complete p r.tag .noOffer {}

/-- REJECT (R47). -/
def execReject (p : Port) (s : State) : Host.Outcome State Fault Refusal := .next (s.present .reject p settleReject)

/-! ### CLOSE (R51) -/

/-- The checks of a CLOSE, in order (R51). -/
def State.closeChecks (s : State) (p : Port) (r : Request) : List (Bool × ResultCode) :=
  [(r.channelBad, .badRequest),
    (!(s.chan r.chan).producedBy p && !(s.chan r.chan).consumedBy p, .notEndpoint),
    ((s.chan r.chan).state == .offered, .noChannel)]

/-- The number of descriptors a close of channel `a` by `p` bounces: the forward queue, when `p` is the consumer (R51). -/
def Active.bounced (a : Active) (p : Port) : Nat := if a.params.producer = p then 0 else a.forward.length

/-- CLOSE: the closer's end is closed with its effects, the CLOSE completes, and the channel unbinds or the other end
receives CHANNEL_CLOSING (R51, R179). -/
def settleClose (r : Request) (p : Port) (s : State) : State :=
  let c := r.chan
  match firstFail (s.closeChecks p r), (s.chan c).active? with
  | some code, _ => s.complete p r.tag code {}
  | none, none => s.complete p r.tag .noChannel {}
  | none, some a =>
    if a.closedBy p then s.complete p r.tag .done { channel := chanField c }
    else
      let s1 := s.closeBy p c
      let drained := s1.inTransit c == 0
      let s2 := s1.complete p r.tag .done
        { channel := chanField c, v0 := word (a.bounced p), v1 := field 0 1 (flag drained) }
      if drained then s2.unbind c
      else s2.notice (a.params.other p) .channelClosing { channel := chanField c, v0 := word (portCode p) }

/-- CLOSE (R51). -/
def execClose (p : Port) (s : State) : Host.Outcome State Fault Refusal := .next (s.present .close p settleClose)

/-! ### QUERY_CHANNEL (R57) -/

/-- The code of a channel state (R178). -/
def chanStateCode : ChanState → Nat
  | .unbound => 0 | .offered => 1 | .opened => 2 | .closing => 3

/-- The values of a QUERY_CHANNEL completion (R57, R178). -/
def State.channelVals (s : State) (c : ChanIx) : Vals :=
  let x := s.chan c
  let st := field 0 2 (chanStateCode x.state)
  let counts : Vals :=
    { v2 := field 0 6 (s.forwardCount c) ||| field 6 6 (s.heldCount c), v3 := field 0 6 (s.returnCount c) }
  match x.params? with
  | none => { counts with v0 := st }
  | some m =>
    let v : Vals :=
      { counts with
        v0 := st ||| field 2 2 (chanKindCode m.kind) ||| field 4 3 (portCode m.producer)
          ||| field 7 3 (portCode m.consumer) ||| field 10 6 m.depthLimit
        v1 := word m.holdLimit
        v2 := counts.v2 ||| field 12 4 m.renewLimit }
    match x.active? with
    | none => v
    | some a =>
      { v with
        v3 := counts.v3 ||| field 14 1 (flag a.closedProducer) ||| field 15 1 (flag a.closedConsumer)
        v4 := a.nextSequence }

/-- QUERY_CHANNEL (R57). -/
def settleQueryChannel (r : Request) (p : Port) (s : State) : State :=
  if r.channelBad then s.complete p r.tag .badRequest {} else s.complete p r.tag .done (s.channelVals r.chan)

/-- QUERY_CHANNEL (R57). -/
def execQueryChannel (p : Port) (s : State) : Host.Outcome State Fault Refusal :=
  .next (s.present .queryChannel p settleQueryChannel)

end Sys2Proof.Machine
end

