-- ==== Sys2Proof/Machine/Events.lean ====
section
/-!
DEFINITION. The events inside the part: pool re-examination, the tick, the timer expiries, the block test, the reclaim walk,
the reset inputs, the memory clear and upsets of stored bits (chapters 2 to 5, 7 and 10). An event whose occasion does not
stand changes nothing (DEDUCED, assumption 7).
-/

namespace Sys2Proof.Machine

/-! ### The pool (R29, R30) -/

/-- A re-examination that has been called for is taken (R28, R29). -/
def State.reexamine (s : State) : State :=
  match s.reexamsDue with
  | 0 => s
  | n + 1 => State.serveHeads s.allocWaits.length { s with reexamsDue := n }

/-- POOL_REEXAMINATION (R29). -/
def execPoolReexamination (s : State) : Host.Outcome State Fault Refusal := .next s.reexamine

/-- An allocation wait timer that has run out expires (R30). -/
def State.expireAlloc (s : State) (p : Port) (tag : Tag) : State :=
  if s.allocWaits.any (fun e => AllocWait.isOf p tag e && e.timer == some .ranOut) then
    (s.dropAllocWait p tag).complete p tag .timedOut {}
  else s

/-- ALLOCATION_WAIT_EXPIRY (R30). -/
def execAllocationWaitExpiry (p : Port) (tag : Tag) (s : State) : Host.Outcome State Fault Refusal :=
  .next (s.expireAlloc p tag)

/-! ### The tick (R85, R87, R89) -/

/-- One tick: the counter rises by one and every running timer counts it. No tick is produced while nRESET is asserted
(R85). -/
def State.tickOnce (s : State) : State :=
  if s.resetIn then s
  else
    { s with
      ticks := s.ticks + 1#32
      allocWaits := s.allocWaits.map (fun e => { e with timer := e.timer.map Timer.count })
      chans := s.chans.map Chan.count
      descs := s.descs.map Desc.count }

/-- TICK (R85). -/
def execTick (s : State) : Host.Outcome State Fault Refusal := .next s.tickOnce

/-! ### Channel timers (R49, R70, R81) -/

/-- A take wait timer that has run out expires (R70). -/
def State.expireTake (s : State) (c : ChanIx) (tag : Tag) : State :=
  match (s.chan c).active? with
  | none => s
  | some a =>
    if a.takeWaits.any (Wait.expired tag) then
      (s.setChan c (.active { a with takeWaits := a.takeWaits.eraseP (Wait.expired tag) })).complete a.params.consumer
        tag .timedOut { channel := chanField c }
    else s

/-- TAKE_WAIT_EXPIRY (R70). -/
def execTakeWaitExpiry (c : ChanIx) (tag : Tag) (s : State) : Host.Outcome State Fault Refusal :=
  .next (s.expireTake c tag)

/-- A collect wait timer that has run out expires (R81). -/
def State.expireCollect (s : State) (c : ChanIx) (tag : Tag) : State :=
  match (s.chan c).active? with
  | none => s
  | some a =>
    if a.collectWaits.any (Wait.expired tag) then
      (s.setChan c (.active { a with collectWaits := a.collectWaits.eraseP (Wait.expired tag) })).complete
        a.params.producer tag .timedOut { channel := chanField c }
    else s

/-- COLLECT_WAIT_EXPIRY (R81). -/
def execCollectWaitExpiry (c : ChanIx) (tag : Tag) (s : State) : Host.Outcome State Fault Refusal :=
  .next (s.expireCollect c tag)

/-- An offer timer that has run out expires: the channel becomes UNBOUND, the OFFER completes EXPIRED and the consumer
receives CHANNEL_UNBOUND (R49). -/
def State.expireOffer (s : State) (c : ChanIx) : State :=
  match s.chan c with
  | .offered m tag .ranOut =>
    ((s.setChan c .unbound).complete m.producer tag .expired
      { channel := chanField c, v0 := word (portCode m.consumer) }).notice m.consumer .channelUnbound
        { channel := chanField c }
  | .offered _ _ (.running _) | .unbound | .active _ => s

/-- OFFER_EXPIRY (R49). -/
def execOfferExpiry (c : ChanIx) (s : State) : Host.Outcome State Fault Refusal := .next (s.expireOffer c)

/-- A hold timer that has run out expires: the buffer is revoked (R92, R93, R94). -/
def State.expireHold (s : State) (i : DescIx) : State :=
  match (s.desc i).life with
  | .held _ _ _ (some .ranOut) _ => s.revoke i true
  | .held _ _ _ (some (.running _)) _ | .held _ _ _ none _ | .free | .filling _ | .queued _ _ | .returning _ _ _
  | .collected _ _ _ => s

/-- HOLD_EXPIRY (R92). -/
def execHoldExpiry (d : DescIx) (s : State) : Host.Outcome State Fault Refusal := .next (s.expireHold d)

/-! ### RETEST (R22, R124 to R126) -/

/-- A block test's result is taken: the block moves to the free list or to the tail of the retired list (R22), and a pass
calls for a re-examination (R29). -/
def State.takeResult (s : State) (b : BlockIx) (pass : Bool) : State :=
  if pass then
    State.callReexam
      { s.setBlock b ⟨.free, false⟩ with retired := s.retired.erase b, freeList := s.freeList ++ [b] }
  else { s with retired := s.retired.erase b ++ [b] }

/-- The end of the operation: the requester's RETEST completes if it is present, and the record becomes idle (R126). -/
def State.endRetest (s : State) (t : Retest) (passed : Nat) : State :=
  let s1 := { s with retest := none }
  match t.requester with
  | none => s1
  | some (p, tag) =>
    s1.complete p tag .done { v0 := word t.tested, v1 := word passed, v2 := word s.retired.length }

/-- The block test in progress ends: its closing write is done, its result is taken, and the next test begins with the
block now at the head of the retired list, or the operation ends (R124, R125). -/
def State.endTest (s : State) : State :=
  match s.retest with
  | none => s
  | some t =>
    let pass := s.blockTestPasses t.block t.disturbed
    let s1 := (s.closeTest t.block t.disturbed).takeResult t.block pass
    let passed := t.passed + flag pass
    match t.remaining - 1, s1.retired with
    | n + 1, b :: _ =>
      { s1 with retest := some { t with remaining := n + 1, passed := passed, block := b, disturbed := [] } }
    | _, _ => s1.endRetest t passed

/-- BLOCK_TEST_END (R125). -/
def execBlockTestEnd (s : State) : Host.Outcome State Fault Refusal := .next s.endTest

/-! ### The reclaim walk and the port reset inputs (R163, R168) -/

/-- One step of the reclaim walk of `p`; the step at index 127 makes the port OFFLINE in the same event (R168). -/
def State.walkStep (s : State) (p : Port) : State :=
  match (s.hpi p).state with
  | .reclaiming i =>
    let s1 := s.walkAt p i
    s1.setHpi p { s1.hpi p with
      state := if h : i.val + 1 < 128 then .reclaiming ⟨i.val + 1, h⟩ else .offline }
  | .offline | .online => s

/-- RECLAIM_WALK_STEP (R168). -/
def execReclaimWalkStep (p : Port) (s : State) : Host.Outcome State Fault Refusal := .next (s.walkStep p)

/-- PORT_RESET_ASSERT (R163): the reclaim start of an ONLINE port; in every state the port's bus is ignored from here. -/
def execPortResetAssert (p : Port) (s : State) : Host.Outcome State Fault Refusal :=
  let s1 := s.setHpi p { s.hpi p with resetIn := true }
  .next (if s.online p then s1.reclaimStart p else s1)

/-- PORT_RESET_RELEASE (R163): the port's bus accesses are taken again; the port state is unchanged. -/
def execPortResetRelease (p : Port) (s : State) : Host.Outcome State Fault Refusal :=
  .next (s.setHpi p { s.hpi p with resetIn := false })

/-! ### Device reset and the memory clear (R36, R171) -/

/-- What device reset does not reach, kept from `s`: the levels of the port reset inputs (R171), the cells of buffer memory
with their upsets and lasting faults, which the memory clear rewrites (R36), the model's count of free values and the
commands waiting (DEDUCED, assumption 11). -/
def State.deviceReset (s : State) : State :=
  { State.reset with
    ports :=
      { a := { Hpi.reset with resetIn := s.ports.a.resetIn }
        b := { Hpi.reset with resetIn := s.ports.b.resetIn }
        c := { Hpi.reset with resetIn := s.ports.c.resetIn }
        d := { Hpi.reset with resetIn := s.ports.d.resetIn } }
    mem := s.mem
    upsets := s.upsets
    stuckCells := s.stuckCells
    freeDraws := s.freeDraws
    pending := s.pending }

/-- DEVICE_RESET (R171): assertion of nRESET. -/
def execDeviceReset (s : State) : Host.Outcome State Fault Refusal := .next s.deviceReset

/-- MEMORY_CLEAR (R36): release of nRESET starts the memory clear, which stores every word as 0x0000, and lets the tick
counter count. The whole clear is shown at this one step (DEDUCED, assumption 14). -/
def execMemoryClear (s : State) : Host.Outcome State Fault Refusal :=
  .next (if s.resetIn then { s.zeroMemory with resetIn := false } else s)

/-- DEVICE_READY (R36): at the end of the memory clear the device state becomes READY. -/
def execDeviceReady (s : State) : Host.Outcome State Fault Refusal :=
  .next (if s.resetIn then s else { s with device := .ready })

/-! ### Upsets (R114, 7.5) -/

/-- Stored bits of word `w` are upset and cells develop a lasting fault. -/
def State.upsetWord (s : State) (w : MemIx) (flips cells level : StoredBits) : State :=
  { s.flipBits w flips with stuckCells := cellSet Stuck.none w.val ((s.stuck w).add cells level) s.stuckCells }

/-- An upset of a word of the block under test is noted in the RETEST record, and draws the free value that places it in
the test (assumption 8). -/
def State.noteUpset (s : State) (w : MemIx) (flips cells : StoredBits) : State :=
  match s.retest with
  | none => s
  | some t =>
    if w.val / 128 = t.block.val then
      { s.drawn with retest := some (t.disturb w flips (cells &&& ~~~(s.stuck w).cells) s.freeValue) }
    else s

/-- STORED_BIT_UPSET (R114). -/
def execStoredBitUpset (w : MemIx) (flips stuck level : StoredBits) (s : State) :
    Host.Outcome State Fault Refusal := .next ((s.noteUpset w flips stuck).upsetWord w flips stuck level)

end Sys2Proof.Machine
end

