-- ==== Sys2Proof/Machine/PoolRequests.lean ====
section
/-!
DEFINITION. The requests of the Pool Unit and Buffer Memory: ALLOCATE, FREE, GRANT, QUERY_POOL and RETEST (chapters 2
and 7).
-/

namespace Sys2Proof.Machine

/-! ### ALLOCATE (R25 to R27) -/

/-- The checks of an ALLOCATE, in order (R25). -/
def State.allocChecks (s : State) (p : Port) (r : Request) : List (Bool × ResultCode) :=
  [(decide (r.count.toNat < 1 ∨ 16 < r.count.toNat), .badRequest),
    (decide (s.quotas.get p < s.charged p + s.waitingDemand p + r.count.toNat), .overQuota)]

/-- The request joins the tail of the allocation wait list and is left WAITING (R27). -/
def State.joinAllocWaits (s : State) (p : Port) (r : Request) : State :=
  let e : AllocWait := ⟨p, r.tag, r.count.toNat, waitTimer r.limit⟩
  State.leaveOutstanding { s with allocWaits := s.allocWaits ++ [e] } p r.tag .waiting

/-- ALLOCATE: refused, satisfied at once, refused NO_BUFFER, or left waiting (R26). -/
def settleAllocate (r : Request) (p : Port) (s : State) : State :=
  match firstFail (s.allocChecks p r) with
  | some code => s.complete p r.tag code {}
  | none =>
    match s.allocWaits, s.canGive r.count.toNat with
    | [], some i => s.satisfy p r.tag r.count.toNat i
    | _, _ => if r.limit = 0#16 then s.complete p r.tag .noBuffer {} else s.joinAllocWaits p r

/-- ALLOCATE (R26). -/
def execAllocate (p : Port) (s : State) : Host.Outcome State Fault Refusal :=
  .next (s.present .allocate p settleAllocate)

/-! ### FREE (R32) -/

/-- FREE: the buffer goes back to the pool, and the completion carries its block count (R32). -/
def settleFree (r : Request) (p : Port) (s : State) : State :=
  match firstFail (s.handleChecks p r.handle (handleBad r.handle) [.filling, .collected]) with
  | some code => s.complete p r.tag code {}
  | none =>
    (s.freeDesc (handleIx r.handle)).complete p r.tag .done
      { blockCount := (s.desc (handleIx r.handle)).blockCount }

/-- FREE (R32). -/
def execFree (p : Port) (s : State) : Host.Outcome State Fault Refusal := .next (s.present .free p settleFree)

/-! ### GRANT (R33, R34) -/

/-- The checks of a GRANT of `k` blocks by `p`, in order; its receiver is checked with the field range and must not be `p`
itself (R33). -/
def State.grantChecks (s : State) (p : Port) (r : Request) : List (Bool × ResultCode) :=
  [((portOf r.peer).isNone || decide (r.count.toNat < 1 ∨ 512 < r.count.toNat), .badRequest),
    (portOf r.peer == some p, .badRequest),
    (decide (s.quotas.get p < r.count.toNat + s.charged p + s.waitingDemand p), .overQuota)]

/-- The quota moves, the receiver is notified if ONLINE, and the GRANT completes (R34). -/
def State.moveQuota (s : State) (p q : Port) (r : Request) : State :=
  let k := r.count.toNat
  let s1 := (s.setQuota p (s.quotas.get p - k)).setQuota q (s.quotas.get q + k)
  (s1.notice q .quotaGranted
    { v0 := word (portCode p), v1 := word k, v2 := word (s.quotas.get q + k) }).complete p r.tag .done
      { v0 := word (s.quotas.get p - k) }

/-- GRANT (R33, R34). -/
def settleGrant (r : Request) (p : Port) (s : State) : State :=
  match firstFail (s.grantChecks p r), portOf r.peer with
  | none, some q => s.moveQuota p q r
  | some code, _ => s.complete p r.tag code {}
  | none, none => s.complete p r.tag .badRequest {}

/-- GRANT (R34). -/
def execGrant (p : Port) (s : State) : Host.Outcome State Fault Refusal := .next (s.present .grant p settleGrant)

/-! ### QUERY_POOL (R35) -/

/-- The values of a QUERY_POOL completion (R35, R178). -/
def State.poolVals (s : State) (p : Port) : Vals where
  v0 := word s.freeList.length
  v1 := word s.retired.length
  v2 := word s.freeDescs
  v3 := word (s.quotas.get p)
  v4 := field 0 10 (s.charged p) ||| field 10 5 (s.allocWaits.head?.elim 0 (·.count))
    ||| field 15 1 (flag s.retest.isSome)

/-- QUERY_POOL (R35). -/
def settleQueryPool (r : Request) (p : Port) (s : State) : State := s.complete p r.tag .done (s.poolVals p)

/-- QUERY_POOL (R35). -/
def execQueryPool (p : Port) (s : State) : Host.Outcome State Fault Refusal :=
  .next (s.present .queryPool p settleQueryPool)

/-! ### RETEST (R123) -/

/-- RETEST: BUSY while the record is running, DONE at once on an empty retired list, and otherwise the operation starts with
the block at the head of the list and the request is left RUNNING (R123). -/
def settleRetest (r : Request) (p : Port) (s : State) : State :=
  match s.retest, s.retired with
  | some _, _ => s.complete p r.tag .busy {}
  | none, [] => s.complete p r.tag .done {}
  | none, b :: rest =>
    let t : Retest := ⟨some (p, r.tag), rest.length + 1, rest.length + 1, 0, b, []⟩
    State.leaveOutstanding { s with retest := some t } p r.tag .running

/-- RETEST (R123). -/
def execRetest (p : Port) (s : State) : Host.Outcome State Fault Refusal := .next (s.present .retest p settleRetest)

end Sys2Proof.Machine
end

