-- ==== Sys2Proof/Machine/Flags.lean ====
section
/-!
DEFINITION. What the part shows and does not store: the attention output (R158), the status, attention enable and fault
capture words, and what a bus read returns in each word of the window whose read changes nothing (R172 to R176).
-/

namespace Sys2Proof.Machine

/-- The attention output of port `p`, `true` while asserted (R158). -/
def State.attention (s : State) (p : Port) : Bool :=
  s.online p && (s.hpi p).attnEnable && decide (1 ≤ (s.hpi p).occupied)

/-- The code of a device state in the port status word (R174). -/
def deviceCode : DeviceState → Nat
  | .initialising => 0 | .ready => 1

/-- The code of a port state in the port status word (R174). -/
def portStateCode : PortState → Nat
  | .offline => 0 | .online => 1 | .reclaiming _ => 2

/-- The port status word (R174). -/
def State.statusWord (s : State) (p : Port) : Word :=
  field 0 1 (deviceCode s.device) ||| field 1 2 (portStateCode (s.hpi p).state) ||| field 4 6 (s.hpi p).occupied
    ||| field 10 4 (s.hpi p).outstanding

/-- The attention enable word (R174). -/
def State.enableWord (s : State) (p : Port) : Word := field 0 1 (flag (s.hpi p).attnEnable)

/-- Fault capture word 0: valid, more, direction and fault kind; 0 when the record is empty (R176). -/
def State.captureWord0 (s : State) (p : Port) : Word :=
  match (s.hpi p).capture with
  | none => 0#16
  | some r =>
    field 15 1 1 ||| field 14 1 (flag r.more) ||| field 8 1 (directionCode r.direction)
      ||| field 0 3 (faultCode r.kind)

/-- Fault capture word 1: the slot (R176). -/
def State.captureWord1 (s : State) (p : Port) : Word :=
  match (s.hpi p).capture with
  | none => 0#16
  | some r => field 0 3 r.slot.val

/-- Fault capture word 2: the aperture offset (R176). -/
def State.captureWord2 (s : State) (p : Port) : Word :=
  match (s.hpi p).capture with
  | none => 0#16
  | some r => field 0 12 r.offset

/-- Word `k` of the event head: the record at the head of the queue, or 0x0000 when the queue is empty (R150). -/
def State.headWord (s : State) (p : Port) (k : Nat) : Word :=
  match (s.hpi p).queue with
  | [] => 0#16
  | r :: _ => r.words.getD k 0#16

/-- The words of the window, by what a taken access to each does (R173). -/
inductive WindowWord where
  | aperture (addr : BitVec 14)
  | staging (k : Fin 8)
  | submit
  | head (k : Nat)
  | consume
  | status
  | enable
  | capture0 | capture1 | capture2
  | faultClear
  | tickLow
  | tickHigh
  | other
  deriving DecidableEq, Repr

/-- The window map, by word address: half the window offset (R173). -/
def windowWord (addr : BitVec 15) : WindowWord :=
  let a := addr.toNat
  if a < 0x4000 then .aperture (addr.setWidth 14)
  else if h : a - 0x4000 < 8 then .staging ⟨a - 0x4000, h⟩
  else if a = 0x4008 then .submit
  else if 0x4010 ≤ a ∧ a ≤ 0x4017 then .head (a - 0x4010)
  else if a = 0x4018 then .consume
  else if a = 0x4020 then .status
  else if a = 0x4021 then .enable
  else if a = 0x4022 then .capture0
  else if a = 0x4023 then .capture1
  else if a = 0x4024 then .capture2
  else if a = 0x4025 then .faultClear
  else if a = 0x4026 then .tickLow
  else if a = 0x4027 then .tickHigh
  else .other

/-- What a bus read returns in the words of the window whose read changes no state (R173). The three words whose read is a
command of the table, the aperture slots, the submit word and the tick low word, answer none: their read is that command (DEDUCED, assumption 22). -/
def State.plainRead (s : State) (p : Port) (addr : BitVec 15) : Option Word :=
  if !s.busTaken p then some 0#16
  else
    match windowWord addr with
    | .aperture _ | .submit | .tickLow => none
    | .staging k => some (s.hpi p).staging[k]
    | .head k => some (s.headWord p k)
    | .status => some (s.statusWord p)
    | .enable => some (s.enableWord p)
    | .capture0 => some (s.captureWord0 p)
    | .capture1 => some (s.captureWord1 p)
    | .capture2 => some (s.captureWord2 p)
    | .tickHigh => some (s.hpi p).tickLatch
    | .consume | .faultClear | .other => some 0#16

end Sys2Proof.Machine
end

