-- ==== Sys2Proof/Machine/Bus.lean ====
section
/-!
DEFINITION. The commands of the port bus: submission, the window writes, the tick low read and the aperture accesses
(chapters 6, 8, 9 and 11).
-/

namespace Sys2Proof.Machine

/-! ### Submission (R132 to R134, R161) -/

/-- The port becomes ONLINE by its ATTACH, whose completion carries quota and charge (R134, R161). -/
def State.attachNow (s : State) (p : Port) (r : Request) : State :=
  let s1 := s.setHpi p { s.hpi p with state := .online, table := [⟨r, .pending⟩] }
  s1.complete p r.tag .done { v0 := word (s.quotas.get p), v1 := word (s.charged p) }

/-- The first answer of R132 that applies. -/
def State.submitAnswer (s : State) (p : Port) : SubmitAnswer :=
  let h := s.hpi p
  if s.device = .initialising then .notReady
  else if h.state ≠ .offline ∧ h.state ≠ .online then .reclaiming
  else if h.state = .offline ∧ kindOf (stagedKind h.staging) ≠ some .attach then .notOnline
  else if kindOf (stagedKind h.staging) = none then .badKind
  else if h.table.any (fun e => e.req.tag == stagedTag h.staging) then .tagInUse
  else if 8 ≤ h.outstanding then .noSlot
  else if 32 ≤ h.occupied + h.outstanding then .noRoom
  else .accepted

/-- An accepted submission: an OFFLINE port attaches at once; otherwise the copied record enters the table PENDING, behind
the entries accepted before it (R133, R134). -/
def State.enter (s : State) (p : Port) (kind : ReqKind) : State :=
  let h := s.hpi p
  let r := stagedRequest h.staging kind
  if s.online p then s.setHpi p { h with table := h.table ++ [⟨r, .pending⟩] } else s.attachNow p r

/-- A read of the submit word: taken as a submission unless the port's bus is ignored (R132). -/
def State.submit (s : State) (p : Port) : State :=
  if s.busTaken p then
    let a := s.submitAnswer p
    let s1 :=
      match a, kindOf (stagedKind (s.hpi p).staging) with
      | .accepted, some kind => s.enter p kind
      | _, _ => s
    s1.driveData p (answerCode a)
  else s.driveData p 0#16

/-- SUBMISSION (R132). -/
def execSubmission (p : Port) (s : State) : Host.Outcome State Fault Refusal := .next (s.submit p)

/-! ### Window writes -/

/-- A write to staging word `k` stores the selected bytes, in every port state (R128). -/
def State.writeStaging (s : State) (p : Port) (k : Fin 8) (w : BusWrite) : State :=
  if s.busTaken p then
    s.setHpi p { s.hpi p with staging := (s.hpi p).staging.set k (mergeBytes w (s.hpi p).staging[k]) }
  else s

/-- The SUMMARY record of `p`'s notice summary is written at the tail and the summary emptied (R155). -/
def State.writeSummary (s : State) (p : Port) : State :=
  let h := s.hpi p
  s.setHpi p { h with
    queue := h.queue ++ [.summary h.sumKinds h.sumChannels s.stamp]
    sumKinds := 0#11
    sumChannels := 0#16 }

/-- A consume: the head record is removed, and a non-empty summary is written into the freed entry; an empty queue is left
as it is (R151, R155). -/
def State.consumeHead (s : State) (p : Port) : State :=
  if s.busTaken p then
    match (s.hpi p).queue with
    | [] => s
    | _ :: rest =>
      let s1 := s.setHpi p { s.hpi p with queue := rest }
      if (s.hpi p).summaryEmpty then s1 else s1.writeSummary p
  else s

/-- A write to the attention enable word of an ONLINE port with the low byte strobe asserted (R157, R174). -/
def State.writeEnable (s : State) (p : Port) (w : BusWrite) : State :=
  if s.busTaken p && s.online p && w.low then s.setHpi p { s.hpi p with attnEnable := w.data.getLsbD 0 } else s

/-- A write to the fault clear word of an ONLINE port empties its fault capture record (R110, R111). -/
def State.clearFault (s : State) (p : Port) : State :=
  if s.busTaken p && s.online p then s.setHpi p { s.hpi p with capture := none } else s

/-- A bus write to any word of the window (R173). -/
def State.busWrite (s : State) (p : Port) (addr : BitVec 15) (w : BusWrite) : State :=
  match windowWord addr with
  | .staging k => s.writeStaging p k w
  | .aperture a => s.writeAperture p a w
  | .consume => s.consumeHead p
  | .enable => s.writeEnable p w
  | .faultClear => s.clearFault p
  | .submit | .head _ | .status | .capture0 | .capture1 | .capture2 | .tickLow | .tickHigh | .other => s

/-- REGISTER_WRITE (R128, R173): a staging word stores its selected bytes and any other word with no behaviour of its own
discards the write. A word that has a command of its own is written as that command writes it
(DEDUCED, assumption 17). -/
def execRegisterWrite (p : Port) (addr : BitVec 15) (w : BusWrite) (s : State) : Host.Outcome State Fault Refusal :=
  .next (s.busWrite p addr w)

/-- CONSUME (R151): whatever the value and strobes. -/
def execConsume (p : Port) (_w : BusWrite) (s : State) : Host.Outcome State Fault Refusal := .next (s.consumeHead p)

/-- ATTENTION_ENABLE_WRITE (R157, R174). -/
def execAttentionEnableWrite (p : Port) (w : BusWrite) (s : State) : Host.Outcome State Fault Refusal :=
  .next (s.writeEnable p w)

/-- FAULT_CLEAR (R110): whatever the value and strobes. -/
def execFaultClear (p : Port) (_w : BusWrite) (s : State) : Host.Outcome State Fault Refusal := .next (s.clearFault p)

/-! ### Reads with an effect -/

/-- A read of the tick low word returns the low half of the counter and latches the high half (R175). -/
def State.readTickLow (s : State) (p : Port) : State :=
  if s.busTaken p then
    s.setHpi p { s.hpi p with dataOut := s.ticks.extractLsb' 0 16, tickLatch := s.ticks.extractLsb' 16 16 }
  else s.driveData p 0#16

/-- TICK_LOW_READ (R175). -/
def execTickLowRead (p : Port) (s : State) : Host.Outcome State Fault Refusal := .next (s.readTickLow p)

/-- APERTURE_READ (R104 to R107, R111). -/
def execApertureRead (p : Port) (addr : BitVec 14) (s : State) : Host.Outcome State Fault Refusal :=
  .next (s.readAperture p addr)

/-- APERTURE_WRITE (R104 to R106, R108, R111). -/
def execApertureWrite (p : Port) (addr : BitVec 14) (w : BusWrite) (s : State) : Host.Outcome State Fault Refusal :=
  .next (s.writeAperture p addr w)

end Sys2Proof.Machine
end

