-- ==== Sys2Proof/Machine/PortRequests.lean ====
section
/-!
DEFINITION. The requests a port's own HPI and Aperture Table settle: ATTACH, DETACH, CANCEL, MAP and UNMAP (chapters 6, 8
and 10).
-/

namespace Sys2Proof.Machine

/-! ### ATTACH and DETACH (R161, R162) -/

/-- An ATTACH presented while the port is ONLINE completes WRONG_STATE (R161). -/
def settleAttach (r : Request) (p : Port) (s : State) : State := s.complete p r.tag .wrongState {}

/-- ATTACH (R161). On an ONLINE port it is the presentation of the port's oldest pending request. On an OFFLINE port it is
the submission that takes the ATTACH at once, where the staging area holds one (R134; DEDUCED, assumption 13). -/
def execAttach (p : Port) (s : State) : Host.Outcome State Fault Refusal :=
  .next (if (s.hpi p).state = .offline then
      if kindOf (stagedKind (s.hpi p).staging) = some .attach then s.submit p else s
    else s.present .attach p settleAttach)

/-- DETACH's presentation is the reclaim start of the port and writes no completion (R162). -/
def settleDetach (_r : Request) (p : Port) (s : State) : State := s.reclaimStart p

/-- DETACH (R162). -/
def execDetach (p : Port) (s : State) : Host.Outcome State Fault Refusal := .next (s.present .detach p settleDetach)

/-! ### CANCEL (R146) -/

/-- The WAITING request of `p`, other than the CANCEL `r` itself, that its target tag names. -/
def State.cancelTarget (s : State) (p : Port) (r : Request) : Option Request :=
  ((s.hpi p).table.find? (fun e => e.req.tag.toNat == r.count.toNat && e.state == .waiting
    && e.req.tag != r.tag)).map (·.req)

/-- The cancelled target completes first, then the CANCEL, which carries the target tag. -/
def State.cancelDone (s : State) (p : Port) (r : Request) (target : Tag) (v : Vals) : State :=
  (s.complete p target .cancelled v).complete p r.tag .done { v0 := word target.toNat }

/-- The CANCEL is taken at the unit that holds the target's wait list: the target's entry is removed and both complete, or
the CANCEL completes NOT_WAITING (R31, R84, R146). Its lookup in the request table and its event at the unit are one step
(DEDUCED, assumption 18). -/
def settleCancel (r : Request) (p : Port) (s : State) : State :=
  if 255 < r.count.toNat then s.complete p r.tag .badRequest {}
  else
    match s.cancelTarget p r with
    | none => s.complete p r.tag .notWaiting {}
    | some t =>
      let v : Vals := { channel := chanField t.chan }
      match t.kind, (s.chan t.chan).active? with
      | .allocate, _ =>
        if s.allocWaits.any (AllocWait.isOf p t.tag) then (s.dropAllocWait p t.tag).cancelDone p r t.tag {}
        else s.complete p r.tag .notWaiting {}
      | .take, some a =>
        if a.params.consumer = p ∧ a.takeWaits.any (fun w => w.tag == t.tag) then
          (s.setChan t.chan (.active { a with takeWaits := a.takeWaits.eraseP (fun w => w.tag == t.tag) })).cancelDone
            p r t.tag v
        else s.complete p r.tag .notWaiting {}
      | .collect, some a =>
        if a.params.producer = p ∧ a.collectWaits.any (fun w => w.tag == t.tag) then
          (s.setChan t.chan
            (.active { a with collectWaits := a.collectWaits.eraseP (fun w => w.tag == t.tag) })).cancelDone p r t.tag v
        else s.complete p r.tag .notWaiting {}
      | _, _ => s.complete p r.tag .notWaiting {}

/-- CANCEL (R146). -/
def execCancel (p : Port) (s : State) : Host.Outcome State Fault Refusal := .next (s.present .cancel p settleCancel)

/-! ### MAP and UNMAP (R101 to R103) -/

/-- The slot holds a mapping of `p` that is live now (R100). -/
def State.slotLive (s : State) (p : Port) (k : Fin 8) : Bool := (s.hpi p).apertures[k].any (fun h => s.live p h)

/-- The checks of a MAP, in order (R101). -/
def State.mapChecks (s : State) (p : Port) (r : Request) : List (Bool × ResultCode) :=
  s.handleChecks p r.handle (handleBad r.handle || r.slotBad) [.filling, .held, .collected]
    ++ [(s.slotLive p r.slotIx, .slotInUse)]

/-- MAP: its handle is written into the slot (R102). -/
def settleMap (r : Request) (p : Port) (s : State) : State :=
  let v : Vals := { v0 := word r.slot.toNat, v1 := r.handle }
  match firstFail (s.mapChecks p r) with
  | some code => s.complete p r.tag code v
  | none =>
    (s.setSlot p r.slotIx (some r.handle)).complete p r.tag .done
      { v with
        blockCount := (s.desc (handleIx r.handle)).blockCount
        v2 := field 0 1 (flag (s.hpi p).apertures[r.slotIx].isSome) }

/-- MAP (R102). -/
def execMap (p : Port) (s : State) : Host.Outcome State Fault Refusal := .next (s.present .mapSlot p settleMap)

/-- UNMAP: the slot is emptied, live or stale (R103). -/
def settleUnmap (r : Request) (p : Port) (s : State) : State :=
  if r.slotBad then s.complete p r.tag .badRequest {}
  else
    match (s.hpi p).apertures[r.slotIx] with
    | none => s.complete p r.tag .notMapped {}
    | some h =>
      (s.setSlot p r.slotIx none).complete p r.tag .done
        { v0 := word r.slot.toNat, v1 := h, v2 := field 0 1 (flag (s.live p h)) }

/-- UNMAP (R103). -/
def execUnmap (p : Port) (s : State) : Host.Outcome State Fault Refusal := .next (s.present .unmapSlot p settleUnmap)

end Sys2Proof.Machine
end

