-- ==== Sys2Proof/Machine/TrafficRequests.lean ====
section
/-!
DEFINITION. The requests that move buffers: POST, TAKE, COLLECT, RELEASE, RETURN, RENEW and REFILL (chapters 4 and 5).
-/

namespace Sys2Proof.Machine

/-! ### POST (R60 to R64) -/

/-- The reply range two posted values name: absent when both are 0 (R6, R61). -/
def postedReply (r : Request) : Option (Nat × Nat) :=
  if r.replyOpen = 0#16 ∧ r.replyClose = 0#16 then none else some (r.replyOpen.toNat, r.replyClose.toNat)

/-- The posted values are refused RANGE for a buffer of this extent on a channel of this kind (R61). -/
def postedBad (r : Request) (extent : Nat) (roundTrip : Bool) : Bool :=
  decide (extent < r.length.toNat) ||
    match postedReply r with
    | none => false
    | some (o, c) => !roundTrip || o % 2 != 0 || c % 2 != 0 || decide (c ≤ o) || decide (extent < c)

/-- The checks of a POST, in order (R60). -/
def State.postChecks (s : State) (p : Port) (r : Request) : List (Bool × ResultCode) :=
  s.handleChecks p r.handle (handleBad r.handle || r.channelBad) [.filling] ++
    [(!(s.chan r.chan).producedBy p, .notEndpoint), ((s.chan r.chan).state != .opened, .noChannel),
      (decide ((s.chan r.chan).params?.elim 0 (·.depthLimit) ≤ s.inTransit r.chan), .full),
      (postedBad r (s.desc (handleIx r.handle)).extent ((s.chan r.chan).isKind .roundTrip), .range)]

/-- The fields a POST on a channel with this next sequence sets (R6). -/
def postedTraffic (r : Request) (sequence : BitVec 16) : Traffic :=
  ⟨r.length.toNat, r.chan, sequence, postedReply r⟩

/-- A POST that passes its checks hands descriptor `i` to the oldest waiting TAKE, or appends it to the forward queue with
ARRIVAL if that was empty (R63, R64). -/
def State.postBuffer (s : State) (p : Port) (r : Request) (i : DescIx) (b : Buf) (a : Active) : State :=
  let c := r.chan
  let t := postedTraffic r a.nextSequence
  let a1 := { a with nextSequence := a.nextSequence + 1#16 }
  let v : Vals := { channel := chanField c, v0 := a.nextSequence }
  match a.takeWaits with
  | w :: ws =>
    ((s.setChan c (.active { a1 with takeWaits := ws })).deliver a.params w.tag i b t).complete p r.tag .done
      { v with v1 := field 0 1 1 }
  | [] =>
    let s1 := (s.setChan c (.active { a1 with forward := a.forward ++ [i] })).setLife i (.queued b t)
    let s2 := if a.forward.isEmpty then s1.notice a.params.consumer .arrival v else s1
    s2.complete p r.tag .done v

/-- POST (R60, R63). -/
def settlePost (r : Request) (p : Port) (s : State) : State :=
  match firstFail (s.postChecks p r), (s.desc (handleIx r.handle)).buf, (s.chan r.chan).active? with
  | none, some b, some a => s.postBuffer p r (handleIx r.handle) b a
  | some code, _, _ => s.refuseOnChannel p r code
  | none, _, _ => s.refuseOnChannel p r .noChannel

/-- POST (R63). -/
def execPost (p : Port) (s : State) : Host.Outcome State Fault Refusal := .next (s.present .post p settlePost)

/-! ### TAKE (R66 to R69) -/

/-- The checks of a TAKE, in order (R66). -/
def State.takeChecks (s : State) (p : Port) (r : Request) : List (Bool × ResultCode) :=
  [(r.channelBad, .badRequest), (!(s.chan r.chan).consumedBy p, .notEndpoint),
    ((s.chan r.chan).active?.elim true (·.closedConsumer), .noChannel)]

/-- A TAKE that finds the forward queue empty completes CLOSED on a CLOSING channel, completes EMPTY with a wait limit of
0, and otherwise joins the take-wait list (R68). -/
def State.takeEmpty (s : State) (p : Port) (r : Request) (a : Active) : State :=
  if a.closedProducer then s.complete p r.tag .closed { channel := chanField r.chan }
  else if r.limit = 0#16 then s.complete p r.tag .empty { channel := chanField r.chan }
  else
    (s.setChan r.chan (.active { a with takeWaits := a.takeWaits ++ [⟨r.tag, waitTimer r.limit⟩] })).leaveOutstanding
      p r.tag .waiting

/-- TAKE: the head of the forward queue becomes HELD (R67), or R68 applies. -/
def settleTake (r : Request) (p : Port) (s : State) : State :=
  match firstFail (s.takeChecks p r), (s.chan r.chan).active? with
  | some code, _ => s.refuseOnChannel p r code
  | none, none => s.refuseOnChannel p r .noChannel
  | none, some a =>
    match a.forward with
    | [] => s.takeEmpty p r a
    | i :: rest =>
      match (s.desc i).life with
      | .queued b t => (s.setChan r.chan (.active { a with forward := rest })).deliver a.params r.tag i b t
      | .free | .filling _ | .held _ _ _ _ _ | .returning _ _ _ | .collected _ _ _ => s

/-- TAKE (R67). -/
def execTake (p : Port) (s : State) : Host.Outcome State Fault Refusal := .next (s.present .take p settleTake)

/-! ### COLLECT (R78 to R80) -/

/-- The checks of a COLLECT, in order (R78). -/
def State.collectChecks (s : State) (p : Port) (r : Request) : List (Bool × ResultCode) :=
  [(r.channelBad, .badRequest), (!(s.chan r.chan).producedBy p, .notEndpoint),
    ((s.chan r.chan).active?.isNone, .noChannel), (!(s.chan r.chan).isKind .roundTrip, .wrongKind)]

/-- The head of the return queue becomes COLLECTED, the COLLECT completes, and a CLOSING channel left with nothing in
transit unbinds (R79). -/
def State.collectHead (s : State) (p : Port) (r : Request) (a : Active) (i : DescIx) (rest : List DescIx) : State :=
  match (s.desc i).life with
  | .returning b t x =>
    (((s.setChan r.chan (.active { a with returns := rest })).setLife i (.collected b t x)).complete p r.tag .done
      (s.collectVals i b t x)).unbindIfDrained r.chan
  | .free | .filling _ | .queued _ _ | .held _ _ _ _ _ | .collected _ _ _ => s

/-- COLLECT: the head of the return queue (R79), EMPTY, or a wait (R80). -/
def settleCollect (r : Request) (p : Port) (s : State) : State :=
  match firstFail (s.collectChecks p r), (s.chan r.chan).active? with
  | some code, _ => s.refuseOnChannel p r code
  | none, none => s.refuseOnChannel p r .noChannel
  | none, some a =>
    match a.returns with
    | i :: rest => s.collectHead p r a i rest
    | [] =>
      if r.limit = 0#16 then s.complete p r.tag .empty { channel := chanField r.chan }
      else
        (s.setChan r.chan
          (.active { a with collectWaits := a.collectWaits ++ [⟨r.tag, waitTimer r.limit⟩] })).leaveOutstanding
          p r.tag .waiting

/-- COLLECT (R79). -/
def execCollect (p : Port) (s : State) : Host.Outcome State Fault Refusal := .next (s.present .collect p settleCollect)

/-! ### RELEASE (R71) -/

/-- The checks of a RELEASE or a RETURN up to the channel's kind (R71, R75). -/
def State.giveUpChecks (s : State) (p : Port) (r : Request) (wrong : ChanKind) : List (Bool × ResultCode) :=
  s.handleChecks p r.handle (handleBad r.handle) [.held] ++
    [((s.desc (handleIx r.handle)).traffic.any (fun t => (s.chan t.channel).isKind wrong), .wrongKind)]

/-- RELEASE: the buffer is freed, the RELEASE completes, and a CLOSING channel left with nothing in transit unbinds
(R71). -/
def settleRelease (r : Request) (p : Port) (s : State) : State :=
  match firstFail (s.giveUpChecks p r .roundTrip), (s.desc (handleIx r.handle)).traffic with
  | none, some t =>
    ((s.freeDesc (handleIx r.handle)).complete p r.tag .done
      { channel := chanField t.channel, v0 := t.sequence }).unbindIfDrained t.channel
  | some code, _ => s.complete p r.tag code {}
  | none, none => s.complete p r.tag .wrongState {}

/-- RELEASE (R71). -/
def execRelease (p : Port) (s : State) : Host.Outcome State Fault Refusal := .next (s.present .release p settleRelease)

/-! ### RETURN (R75 to R77) -/

/-- The bytes of a reply range, 0 when it is absent (R75). -/
def Traffic.replyBytes (t : Traffic) : Nat := t.reply.elim 0 (fun x => x.2 - x.1)

/-- The checks of a RETURN, in order (R75). -/
def State.returnChecks (s : State) (p : Port) (r : Request) : List (Bool × ResultCode) :=
  s.giveUpChecks p r .oneWay ++
    [(decide ((s.desc (handleIx r.handle)).traffic.elim 0 Traffic.replyBytes < r.length.toNat), .range)]

/-- A RETURN that passes its checks: to an ONLINE producer the buffer arrives at the return side (R76); to one that is gone
it is freed, with the freed indication set (R77). -/
def State.giveBack (s : State) (p : Port) (r : Request) (i : DescIx) (b : Buf) (t : Traffic) : State :=
  let gone := !s.comesBack t.channel
  let s1 := if gone then s.freeDesc i else s.comeBack i b t ⟨.replied, some r.length.toNat⟩
  (s1.complete p r.tag .done
    { channel := chanField t.channel, v0 := t.sequence, v1 := field 0 1 (flag gone) }).unbindIfDrained t.channel

/-- RETURN (R75 to R77). -/
def settleReturn (r : Request) (p : Port) (s : State) : State :=
  match firstFail (s.returnChecks p r), (s.desc (handleIx r.handle)).life with
  | none, .held b t _ _ _ => s.giveBack p r (handleIx r.handle) b t
  | some code, _ => s.complete p r.tag code {}
  | none, _ => s.complete p r.tag .wrongState {}

/-- RETURN (R76). -/
def execReturn (p : Port) (s : State) : Host.Outcome State Fault Refusal :=
  .next (s.present .returnBuffer p settleReturn)

/-! ### RENEW (R91) -/

/-- A RENEW completion carries the handle, the hold time remaining and the renewals used (R91). -/
def renewVals (r : Request) (left : Word) (used : Nat) : Vals := { v0 := r.handle, v1 := left, v2 := word used }

/-- RENEW at the renew limit: nothing changes but its completion. Where the hold timer has run out and its expiry has not
been taken, the spec gives the hold time remaining no value: a free value (DESIGN CHOICE, assumption 6). -/
def State.renewRefused (s : State) (p : Port) (r : Request) (timer : Option Timer) (used : Nat) : State :=
  match timer with
  | some (.running n) => s.complete p r.tag .renewLimit (renewVals r (word n) used)
  | some .ranOut => s.drawn.complete p r.tag .renewLimit (renewVals r s.freeValue used)
  | none => s.complete p r.tag .renewLimit (renewVals r 0#16 used)

/-- RENEW (R91). -/
def settleRenew (r : Request) (p : Port) (s : State) : State :=
  let i := handleIx r.handle
  match firstFail (s.handleChecks p r.handle (handleBad r.handle) [.held]), (s.desc i).life with
  | none, .held b t q timer used =>
    match (s.chan t.channel).params?.elim (0, 0) (fun m => (m.holdLimit, m.renewLimit)) with
    | (0, _) => s.complete p r.tag .done (renewVals r 0#16 used)
    | (limit, most) =>
      if used < most then
        (s.setLife i (.held b t q (some (.running limit)) (used + 1))).complete p r.tag .done
          (renewVals r (word limit) (used + 1))
      else s.renewRefused p r timer used
  | some code, _ => s.complete p r.tag code { v0 := r.handle }
  | none, _ => s.complete p r.tag .wrongState { v0 := r.handle }

/-- RENEW (R91). -/
def execRenew (p : Port) (s : State) : Host.Outcome State Fault Refusal := .next (s.present .renew p settleRenew)

/-! ### REFILL (R83) -/

/-- REFILL: a COLLECTED buffer is FILLING again, its traffic fields and return fields cleared (R83). -/
def settleRefill (r : Request) (p : Port) (s : State) : State :=
  let i := handleIx r.handle
  match firstFail (s.handleChecks p r.handle (handleBad r.handle) [.collected]), (s.desc i).buf with
  | none, some b =>
    (s.setLife i (.filling b)).complete p r.tag .done
      { blockCount := b.blocks.length, damaged := b.damaged, v0 := r.handle }
  | some code, _ => s.complete p r.tag code {}
  | none, none => s.complete p r.tag .wrongState {}

/-- REFILL (R83). -/
def execRefill (p : Port) (s : State) : Host.Outcome State Fault Refusal := .next (s.present .refill p settleRefill)

end Sys2Proof.Machine
end

