-- ==== Sys2Proof/Machine/Dispatch.lean ====
section
/-!
DEFINITION. The meaning of every command, one arm for each row of spec/opcode_table.json.
-/

namespace Sys2Proof.Machine

/-- What a command does to everything but the queue of waiting commands. -/
def exec (i : Instr) (s : State) : Host.Outcome State Fault Refusal :=
  match i with
  | .submission p => Sys2Proof.Machine.execSubmission p s
  | .registerWrite p addr w => Sys2Proof.Machine.execRegisterWrite p addr w s
  | .consume p w => Sys2Proof.Machine.execConsume p w s
  | .attentionEnableWrite p w => Sys2Proof.Machine.execAttentionEnableWrite p w s
  | .faultClear p w => Sys2Proof.Machine.execFaultClear p w s
  | .tickLowRead p => Sys2Proof.Machine.execTickLowRead p s
  | .apertureRead p addr => Sys2Proof.Machine.execApertureRead p addr s
  | .apertureWrite p addr w => Sys2Proof.Machine.execApertureWrite p addr w s
  | .attach p => Sys2Proof.Machine.execAttach p s
  | .detach p => Sys2Proof.Machine.execDetach p s
  | .cancel p => Sys2Proof.Machine.execCancel p s
  | .allocate p => Sys2Proof.Machine.execAllocate p s
  | .free p => Sys2Proof.Machine.execFree p s
  | .refill p => Sys2Proof.Machine.execRefill p s
  | .grant p => Sys2Proof.Machine.execGrant p s
  | .retest p => Sys2Proof.Machine.execRetest p s
  | .queryPool p => Sys2Proof.Machine.execQueryPool p s
  | .offer p => Sys2Proof.Machine.execOffer p s
  | .withdraw p => Sys2Proof.Machine.execWithdraw p s
  | .accept p => Sys2Proof.Machine.execAccept p s
  | .reject p => Sys2Proof.Machine.execReject p s
  | .close p => Sys2Proof.Machine.execClose p s
  | .queryChannel p => Sys2Proof.Machine.execQueryChannel p s
  | .post p => Sys2Proof.Machine.execPost p s
  | .take p => Sys2Proof.Machine.execTake p s
  | .collect p => Sys2Proof.Machine.execCollect p s
  | .release p => Sys2Proof.Machine.execRelease p s
  | .returnBuffer p => Sys2Proof.Machine.execReturn p s
  | .renew p => Sys2Proof.Machine.execRenew p s
  | .mapSlot p => Sys2Proof.Machine.execMap p s
  | .unmapSlot p => Sys2Proof.Machine.execUnmap p s
  | .poolReexamination => Sys2Proof.Machine.execPoolReexamination s
  | .tick => Sys2Proof.Machine.execTick s
  | .allocationWaitExpiry p tag => Sys2Proof.Machine.execAllocationWaitExpiry p tag s
  | .takeWaitExpiry c tag => Sys2Proof.Machine.execTakeWaitExpiry c tag s
  | .collectWaitExpiry c tag => Sys2Proof.Machine.execCollectWaitExpiry c tag s
  | .offerExpiry c => Sys2Proof.Machine.execOfferExpiry c s
  | .holdExpiry d => Sys2Proof.Machine.execHoldExpiry d s
  | .blockTestEnd => Sys2Proof.Machine.execBlockTestEnd s
  | .reclaimWalkStep p => Sys2Proof.Machine.execReclaimWalkStep p s
  | .portResetAssert p => Sys2Proof.Machine.execPortResetAssert p s
  | .portResetRelease p => Sys2Proof.Machine.execPortResetRelease p s
  | .deviceReset => Sys2Proof.Machine.execDeviceReset s
  | .memoryClear => Sys2Proof.Machine.execMemoryClear s
  | .deviceReady => Sys2Proof.Machine.execDeviceReady s
  | .storedBitUpset w flips stuck level => Sys2Proof.Machine.execStoredBitUpset w flips stuck level s

end Sys2Proof.Machine
end

