-- ==== Sys2Proof/Machine/Step.lean ====
section
/-!
DEFINITION. One step of the block: the command at the front of the queue, or an idle step on an empty queue.
-/

namespace Sys2Proof.Machine

/-- One step takes the command at the front of the queue and answers what it does to the state with the queue's rest. On an
empty queue the block idles (DESIGN CHOICE, assumption 9). -/
def step (s : State) : Host.Outcome State Fault Refusal :=
  match s.pending with
  | [] => .next s
  | c :: rest => exec c { s with pending := rest }

/-- The state with the command an instruction word spells put at the front of its queue; unchanged where the word spells
none, which is every word, since no row of the opcode table gives bits (DEDUCED, assumption 10). -/
def State.withFetchWord (s : State) (nbits w : Nat) : State :=
  match decodeTableWord nbits w with
  | none => s
  | some c => { s with pending := c :: s.pending }

end Sys2Proof.Machine
end

