-- ==== Sys2Proof/Safety.lean ====
section
/-!
DEFINITION. The laws of the device: what the spec calls a law, and the closer properties its rules state of every moment,
as predicates on the state. A safe run is one in which they hold of every state.
-/

namespace Sys2Proof.Machine

/-- Nothing of the port is outstanding, queued, folded, enabled, mapped or captured (R137, R159, R113). -/
def Hpi.bare (h : Hpi) : Prop :=
  h.table = [] ∧ h.queue = [] ∧ h.summaryEmpty = true ∧ h.attnEnable = false ∧
    (∀ k : Fin 8, h.apertures[k] = none) ∧ h.capture = none

/-- At most 8 requests are outstanding, occupied and outstanding are at most 32, a port that is not ONLINE is bare, and the
summary is non-empty only while occupied and outstanding equal 32 (R137, R154). -/
def Hpi.law (h : Hpi) : Prop :=
  h.outstanding ≤ 8 ∧ h.occupied + h.outstanding ≤ 32 ∧ (h.state ≠ .online → h.bare) ∧
    (h.summaryEmpty = false → h.occupied + h.outstanding = 32)

/-- `Hpi.law` for every port. -/
def State.portLaw (s : State) : Prop := ∀ p : Port, (s.hpi p).law

/-- No two entries of one request table hold the same tag (R136). -/
def State.tagLaw (s : State) : Prop := ∀ p : Port, ((s.hpi p).table.map (fun e => e.req.tag)).Nodup

/-- The four quotas sum to 512 (R23). -/
def State.quotaLaw (s : State) : Prop := s.quotas.a + s.quotas.b + s.quotas.c + s.quotas.d = 512

/-- For each port, charge and waiting demand never exceed the quota (R24). -/
def State.demandLaw (s : State) : Prop := ∀ p : Port, s.charged p + s.waitingDemand p ≤ s.quotas.get p

/-- The block lists of the descriptors, in index order. -/
def State.lentBlocks (s : State) : List BlockIx := s.descs.toList.flatMap Desc.blockList

/-- Each block is in exactly one of the free list, the retired list and the descriptors' block lists (R18). -/
def State.blockLaw (s : State) : Prop :=
  ∀ b : BlockIx, (s.freeList ++ s.retired ++ s.lentBlocks).count b = 1

/-- A block's state agrees with its place, and only a block IN_USE carries a mark (R17, R18). -/
def State.markLaw (s : State) : Prop :=
  ∀ b : BlockIx,
    (b ∈ s.freeList → s.block b = ⟨.free, false⟩) ∧ (b ∈ s.retired → s.block b = ⟨.retired, false⟩) ∧
      (b ∈ s.lentBlocks → (s.block b).state = .inUse)

/-- While a RETEST runs, its block under test is the head of the retired list and the list holds the blocks still to be
tested, of which there is at least one (R122, R125); and the upsets noted are of the block under test and fell within the
test (assumption 8). -/
def State.retestLaw (s : State) : Prop :=
  ∀ t : Retest, s.retest = some t →
    s.retired.head? = some t.block ∧ 1 ≤ t.remaining ∧ t.remaining ≤ s.retired.length ∧
      ∀ d ∈ t.disturbed, d.word.val / 128 = t.block.val ∧ d.moment ≤ testOps

/-- No channel has the same port as producer and consumer (R41). -/
def State.endsLaw (s : State) : Prop :=
  ∀ c : ChanIx, ∀ m : ChanParams, (s.chan c).params? = some m → m.producer ≠ m.consumer

/-- The forward queue of channel `c`, empty where it is absent. -/
def State.forward (s : State) (c : ChanIx) : List DescIx := (s.chan c).active?.elim [] (·.forward)

/-- The return queue of channel `c`, empty where it is absent. -/
def State.returns (s : State) (c : ChanIx) : List DescIx := (s.chan c).active?.elim [] (·.returns)

/-- The descriptor is QUEUED on channel `c`. -/
def Desc.queuedOn (d : Desc) (c : ChanIx) : Bool :=
  d.state == .queued && d.traffic.any (fun t => decide (t.channel = c))

/-- The descriptor is RETURNING on channel `c`. -/
def Desc.returningOn (d : Desc) (c : ChanIx) : Bool :=
  d.state == .returning && d.traffic.any (fun t => decide (t.channel = c))

/-- A descriptor is in a channel's forward queue exactly when it is QUEUED on it, in its return queue exactly when it is
RETURNING on it, and in each once (R11). -/
def State.queueLaw (s : State) : Prop :=
  ∀ c : ChanIx, (s.forward c).Nodup ∧ (s.returns c).Nodup ∧
    ∀ i : DescIx, (i ∈ s.forward c ↔ (s.desc i).queuedOn c = true) ∧ (i ∈ s.returns c ↔ (s.desc i).returningOn c = true)

/-- A channel's in-transit count never exceeds its depth limit, and is 0 unless the channel is OPEN or CLOSING (R42). -/
def State.depthLaw (s : State) : Prop :=
  ∀ c : ChanIx, match (s.chan c).active? with
    | none => s.inTransit c = 0
    | some a => s.inTransit c ≤ a.params.depthLimit

/-- The sequence a descriptor was posted with. -/
def State.sequenceOf (s : State) (i : DescIx) : BitVec 16 := (s.desc i).traffic.elim 0#16 (·.sequence)

/-- The sequences of a forward queue are consecutive modulo 65536, and that of its tail is next sequence minus one (R62). -/
def State.sequenceLaw (s : State) : Prop :=
  ∀ c : ChanIx, ∀ a : Active, (s.chan c).active? = some a →
    a.forward.map s.sequenceOf =
      (List.range a.forward.length).map
        (fun k => a.nextSequence - BitVec.ofNat 16 a.forward.length + BitVec.ofNat 16 k)

/-- A take-wait list is non-empty only while the channel is OPEN and its forward queue empty (R69); a collect-wait list
only while the return queue is empty (R72). -/
def State.waitLaw (s : State) : Prop :=
  ∀ c : ChanIx, ∀ a : Active, (s.chan c).active? = some a →
    (a.takeWaits ≠ [] → a.forward = [] ∧ a.closedProducer = false ∧ a.closedConsumer = false) ∧
      (a.collectWaits ≠ [] → a.returns = [])

/-- A CLOSING channel has a buffer in transit, since it would otherwise have unbound (R56, R80). -/
def State.closingLaw (s : State) : Prop :=
  ∀ c : ChanIx, (s.chan c).state = .closing → 0 < s.inTransit c

/-- Every waiting request belongs to a port that is ONLINE: no entry of the allocation wait list belongs to another (R31),
and a take-wait or collect-wait list is non-empty only while its channel's consumer or producer is ONLINE (R84, R164). -/
def State.waiterLaw (s : State) : Prop :=
  (∀ e ∈ s.allocWaits, s.online e.port = true) ∧
    ∀ c : ChanIx, ∀ a : Active, (s.chan c).active? = some a →
      (a.takeWaits ≠ [] → s.online a.params.consumer = true) ∧
        (a.collectWaits ≠ [] → s.online a.params.producer = true)

/-- An OFFLINE port holds no descriptor, and a RECLAIMING port holds none that its walk has passed (R161, R168). -/
def State.walkLaw (s : State) : Prop :=
  ∀ p : Port, ∀ i : DescIx, (s.desc i).holder = some p →
    (s.hpi p).state ≠ .offline ∧ ∀ next : DescIx, (s.hpi p).state = .reclaiming next → next ≤ i

/-- The channel named in the record of a QUEUED, HELD or RETURNING descriptor is OPEN or CLOSING, its producer is the
origin, and its consumer holds the descriptor if it is HELD (R4, R67). -/
def State.transitLaw (s : State) : Prop :=
  ∀ i : DescIx, ∀ b t, (s.desc i).buf = some b → (s.desc i).traffic = some t → (s.desc i).state ≠ .collected →
    ∃ a : Active, (s.chan t.channel).active? = some a ∧ a.params.producer = b.origin ∧
      ((s.desc i).state = .held → (s.desc i).holder = some a.params.consumer)

/-- While nRESET is asserted the device state is INITIALISING (R36), while it is INITIALISING every port is OFFLINE (R37),
and a port whose reset input is asserted is not ONLINE (R158, R163). -/
def State.resetLaw (s : State) : Prop :=
  (s.resetIn = true → s.device = .initialising) ∧
    (s.device = .initialising → ∀ p : Port, (s.hpi p).state = .offline) ∧
      ∀ p : Port, (s.hpi p).resetIn = true → (s.hpi p).state ≠ .online

/-- While no re-examination is called for, the head of the allocation wait list cannot be served (R29). -/
def State.reexamLaw (s : State) : Prop :=
  s.reexamsDue = 0 → ∀ e rest, s.allocWaits = e :: rest → s.canGive e.count = none

/-- Buffer memory, its upsets and its lasting faults are in canonical form. -/
def State.memoryWf (s : State) : Prop :=
  cellsWf 0#8 memBytes s.mem = true ∧ cellsWf 0#22 memWords s.upsets = true ∧
    cellsWf Stuck.none memWords s.stuckCells = true

/-- Port `p` can write word `w` of buffer memory now: an aperture write of it at some window address is granted and reaches
the word (R105). -/
def State.canWrite (s : State) (p : Port) (w : MemIx) : Prop :=
  ∃ addr : BitVec 14, ∃ i : DescIx,
    s.accessCheck p addr .write = .ok i ∧ (s.desc i).wordAt (apertureOffset addr) = w

/-- At most one port can write any given word of buffer memory (R105). -/
def State.writerLaw (s : State) : Prop :=
  ∀ (p q : Port) (w : MemIx), s.canWrite p w → s.canWrite q w → p = q

/-! ### Terms of the statements -/

/-- The presentation of a request of each kind is the command of that name. -/
def presentation (k : ReqKind) (p : Port) : Instr :=
  match k with
  | .attach => .attach p
  | .detach => .detach p
  | .cancel => .cancel p
  | .allocate => .allocate p
  | .free => .free p
  | .refill => .refill p
  | .grant => .grant p
  | .retest => .retest p
  | .queryPool => .queryPool p
  | .offer => .offer p
  | .withdraw => .withdraw p
  | .accept => .accept p
  | .reject => .reject p
  | .close => .close p
  | .post => .post p
  | .take => .take p
  | .collect => .collect p
  | .release => .release p
  | .returnBuffer => .returnBuffer p
  | .renew => .renew p
  | .queryChannel => .queryChannel p
  | .mapSlot => .mapSlot p
  | .unmapSlot => .unmapSlot p

/-- The eight outcomes; every other result code is a refusal (R145). -/
def ResultCode.isOutcome : ResultCode → Bool
  | .done | .cancelled | .timedOut | .closed | .rejected | .expired | .withdrawn | .peerGone => true
  | .badRequest | .staleHandle | .notHolder | .wrongState | .notEndpoint | .noChannel | .wrongKind | .full | .empty
  | .overQuota | .noBuffer | .channelBusy | .peerOffline | .noOffer | .range | .renewLimit | .busy | .slotInUse
  | .notMapped | .notWaiting => false

/-- Port `p` is ONLINE, its oldest pending request is `r`, of kind `k`, and the tags of its table differ (R136, R139). -/
def State.presents (s : State) (k : ReqKind) (p : Port) (r : Request) : Prop :=
  s.online p = true ∧ s.nextPending p = some r ∧ r.kind = k ∧ ((s.hpi p).table.map (fun e => e.req.tag)).Nodup

/-- Port `p` has an outstanding request with this tag and kind, and the tags of its table differ (R136). -/
def State.hasRequest (s : State) (p : Port) (tag : Tag) (k : ReqKind) : Prop :=
  (∃ e ∈ (s.hpi p).table, e.req.tag = tag ∧ e.req.kind = k) ∧ ((s.hpi p).table.map (fun e => e.req.tag)).Nodup

/-- The HPI after the completion of the request with tag `tag` and kind `k`: the entry has left the table and the record
stands at the tail of the queue (R142). -/
def Hpi.afterCompletion (h : Hpi) (tag : Tag) (k : ReqKind) (code : ResultCode) (v : Vals) (stamp : Word) : Hpi :=
  { h with
    table := h.table.filter (fun e => decide (e.req.tag ≠ tag))
    queue := h.queue ++ [.completion code tag k v stamp] }

/-- The HPI after a notice raised for the port: written at the tail if the port is ONLINE, its summary empty and an entry
free; folded if it is ONLINE and not so; discarded otherwise (R152, R154). -/
def Hpi.afterNotice (h : Hpi) (k : NoticeKind) (v : Vals) (stamp : Word) : Hpi :=
  if h.state = .online then
    if h.summaryEmpty = true ∧ h.occupied + h.outstanding < 32 then { h with queue := h.queue ++ [.notice k v stamp] }
    else
      { h with
        sumKinds := h.sumKinds ||| BitVec.twoPow 11 (noticeCode k - 1)
        sumChannels :=
          if noticeHasChannel k then h.sumChannels ||| BitVec.twoPow 16 v.channel.toNat else h.sumChannels }
  else h

/-- Every port but `p` has the HPI it had. -/
def State.othersKept (s t : State) (p : Port) : Prop := ∀ q : Port, q ≠ p → t.hpi q = s.hpi q

/-- The presented request `r` of `p` completes with this result and these values, and nothing else changes. -/
def State.onlyCompletes (s t : State) (p : Port) (r : Request) (code : ResultCode) (v : Vals) : Prop :=
  t.hpi p = (s.hpi p).afterCompletion r.tag r.kind code v s.stamp ∧ s.othersKept t p ∧ t = { s with ports := t.ports }

/-- Every descriptor but `i` is the one it was. -/
def State.otherDescs (s t : State) (i : DescIx) : Prop := ∀ j : DescIx, j ≠ i → t.desc j = s.desc j

/-- Every channel but `c` is the one it was. -/
def State.otherChans (s t : State) (c : ChanIx) : Prop := ∀ d : ChanIx, d ≠ c → t.chan d = s.chan d

/-- Descriptor `i` has become FREE: its generation risen by one, every other field cleared (R12), every other descriptor as
it was, its unmarked blocks at the tail of the free list and its marked ones at the tail of the retired list, in list order
(R21), and a re-examination called for (R29). -/
def State.becameFree (s t : State) (i : DescIx) : Prop :=
  t.desc i = ⟨(s.desc i).generation + 1#8, .free⟩ ∧ s.otherDescs t i ∧
    t.freeList = s.freeList ++ (s.desc i).blockList.filter (fun b => !(s.block b).suspect) ∧
    t.retired = s.retired ++ (s.desc i).blockList.filter (fun b => (s.block b).suspect) ∧
    (∀ b : BlockIx, t.block b =
      if b ∈ (s.desc i).blockList then ⟨if (s.block b).suspect then .retired else .free, false⟩ else s.block b) ∧
    t.reexamsDue = s.reexamsDue + 1

/-- FREE descriptor `i` has been lent to `p` with the first `n` blocks of the free list (R13, R19). -/
def State.lentTo (s t : State) (p : Port) (n : Nat) (i : DescIx) : Prop :=
  t.desc i = ⟨(s.desc i).generation, .filling ⟨p, s.freeList.take n, false⟩⟩ ∧ s.otherDescs t i ∧
    t.freeList = s.freeList.drop n ∧
    ∀ b : BlockIx, t.block b = if b ∈ s.freeList.take n then ⟨.inUse, false⟩ else s.block b

/-- `i` is the FREE descriptor with the lowest index (R13). -/
def State.isLowestFree (s : State) (i : DescIx) : Prop :=
  (s.desc i).state = .free ∧ ∀ j : DescIx, j < i → (s.desc j).state ≠ .free

/-- `n` blocks cannot be given now: the free list is shorter, or no descriptor is FREE (R26, R28). -/
def State.cannotGive (s : State) (n : Nat) : Prop :=
  s.freeList.length < n ∨ ∀ j : DescIx, (s.desc j).state ≠ .free

/-- The HPI after the request with tag `tag` is left WAITING or RUNNING (R139). -/
def Hpi.leftAs (h : Hpi) (tag : Tag) (x : EntryState) : Hpi :=
  { h with table := h.table.map (fun e => if e.req.tag = tag then { e with state := x } else e) }

/-- The HPI after the requests of these wait entries complete alike, in list order (R52, R56). -/
def Hpi.afterAll (h : Hpi) (ws : List Wait) (k : ReqKind) (code : ResultCode) (v : Vals) (stamp : Word) : Hpi :=
  ws.foldl (fun h w => h.afterCompletion w.tag k code v stamp) h

/-- The handle of `r` passes the checks of R15 for port `p` and the states `accepts`: bit 7 clear, not stale, held by `p`,
and in a state accepted. -/
def State.handlePasses (s : State) (p : Port) (r : Request) (accepts : List DescState) : Prop :=
  handleBad r.handle = false ∧ s.stale r.handle = false ∧ (s.desc (handleIx r.handle)).holder = some p ∧
    (s.desc (handleIx r.handle)).state ∈ accepts

/-! #### A buffer that leaves its consumer, and the end of a close -/

/-- Buffers of channel `a` come back to its producer: it is ROUND_TRIP and its producer is ONLINE (R73, R77, R93). -/
def State.givesBack (s : State) (a : Active) : Bool :=
  decide (a.params.kind = .roundTrip) && s.online a.params.producer

/-- Channel `a` once HELD descriptor `i` has left its consumer: where buffers come back the oldest waiting COLLECT has
received it, or it stands at the tail of the return queue (R73). -/
def Active.afterLeaving (a : Active) (i : DescIx) (back : Bool) : Active :=
  match back, a.collectWaits with
  | false, _ => a
  | true, [] => { a with returns := a.returns ++ [i] }
  | true, _ :: ws => { a with collectWaits := ws }

/-- The buffer that leaves its consumer is the last one in transit on CLOSING channel `k`, and does not join its return
queue, so that the channel unbinds (R56). -/
def State.lastLeaves (s : State) (k : ChanIx) (a : Active) (back : Bool) : Bool :=
  decide ((s.chan k).state = .closing ∧ s.inTransit k = 1) && (!back || !a.collectWaits.isEmpty)

/-- HELD descriptor `i`, with the fields `b` and `tr`, leaves the consumer of its channel `a`, whose HPI `own` shows what
the event wrote to the consumer before any unbinding. To an ONLINE producer of a ROUND_TRIP channel it comes back with
`came`, to the oldest waiting COLLECT or to the tail of the return queue with RETURN_ARRIVAL if that was empty (R73, R74);
otherwise it becomes FREE. A CLOSING channel left with nothing in transit then unbinds: the remaining waiting COLLECTs
complete CLOSED and each ONLINE end receives CHANNEL_UNBOUND (R56). Nothing else changes. -/
def State.leaves (s t : State) (i : DescIx) (b : Buf) (tr : Traffic) (a : Active) (came : Came) (own : Hpi) : Prop :=
  let k := tr.channel
  let p := a.params.consumer
  let q := a.params.producer
  let v : Vals := { channel := BitVec.ofNat 4 k.val }
  let back := s.givesBack a
  let c := a.afterLeaving i back
  let last := s.lastLeaves k a back
  let told : Hpi :=
    match back, a.collectWaits with
    | false, _ => s.hpi q
    | true, [] => if a.returns = [] then (s.hpi q).afterNotice .returnArrival v s.stamp else s.hpi q
    | true, w :: _ => (s.hpi q).afterCompletion w.tag .collect .done (s.collectVals i b tr came) s.stamp
  t.chan k = (if last then .unbound else .active c) ∧ s.otherChans t k ∧
    t.hpi p = (if last then own.afterNotice .channelUnbound v s.stamp else own) ∧
    t.hpi q = (if last then (told.afterAll c.collectWaits .collect .closed v s.stamp).afterNotice .channelUnbound v s.stamp
      else told) ∧
    (∀ x : Port, x ≠ p → x ≠ q → t.hpi x = s.hpi x) ∧
    (back = true →
      t.desc i = ⟨(s.desc i).generation, if a.collectWaits = [] then .returning b tr came else .collected b tr came⟩ ∧
        s.otherDescs t i ∧ t = { s with ports := t.ports, chans := t.chans, descs := t.descs }) ∧
    (back = false →
      s.becameFree t i ∧
        t = { s with
          ports := t.ports, chans := t.chans, descs := t.descs, blocks := t.blocks, freeList := t.freeList,
          retired := t.retired, reexamsDue := t.reexamsDue })

/-- The descriptors of `is` have become FREE from the first to the last: their generations have risen by one (R12), and
their unmarked blocks stand at the tail of the free list and their marked ones at the tail of the retired list, in
block-list order (R21). -/
def State.freedAll (s t : State) (is : List DescIx) : Prop :=
  let bs := is.flatMap fun i => (s.desc i).blockList
  (∀ i ∈ is, t.desc i = ⟨(s.desc i).generation + 1#8, .free⟩) ∧
    t.freeList = s.freeList ++ bs.filter (fun b => !(s.block b).suspect) ∧
    t.retired = s.retired ++ bs.filter (fun b => (s.block b).suspect) ∧
    ∀ b : BlockIx, t.block b =
      if b ∈ bs then ⟨if (s.block b).suspect then .retired else .free, false⟩ else s.block b

/-- Channel `a` after the bounce of a close by its consumer: where buffers come back, as many waiting COLLECTs as there are
buffers have gone, and the buffers left over stand behind those of the return queue (R53, R54). -/
def Active.afterBounce (a : Active) (back : Bool) : Active :=
  { a with
    closedConsumer := true
    takeWaits := []
    forward := []
    returns := if back then a.returns ++ a.forward.drop a.collectWaits.length else a.returns
    collectWaits := if back then a.collectWaits.drop a.forward.length else a.collectWaits }

/-- The HPI `h` of the producer of channel `k` after the bounce: BOUNCED on a ONE_WAY channel; on a ROUND_TRIP one, with the
producer ONLINE, the DONE completions of its waiting COLLECTs in forward order, and RETURN_ARRIVAL if the return queue was
empty and is not (R53, R54, R179). -/
def State.toldOfBounce (s : State) (k : ChanIx) (a : Active) (h : Hpi) : Hpi :=
  let v : Vals := { channel := BitVec.ofNat 4 k.val }
  let collected : Hpi := (a.collectWaits.zip a.forward).foldl (fun h x =>
    match (s.desc x.2).life with
    | .queued b tr =>
      h.afterCompletion x.1.tag .collect .done (s.collectVals x.2 b tr ⟨.undelivered, none⟩) s.stamp
    | _ => h) h
  if a.params.kind = .oneWay then
    if a.forward = [] then h else h.afterNotice .bounced { v with v0 := BitVec.ofNat 16 a.forward.length } s.stamp
  else if s.givesBack a = true then
    if a.returns = [] ∧ a.collectWaits.length < a.forward.length then collected.afterNotice .returnArrival v s.stamp
    else collected
  else h

/-- The descriptors of the forward queue of `a` have come back to its producer: each is UNDELIVERED with no reply length,
COLLECTED if a COLLECT waited for it and RETURNING otherwise (R54). -/
def State.undelivered (s t : State) (a : Active) : Prop :=
  ∀ (j : Nat) (i : DescIx) (b : Buf) (tr : Traffic), a.forward[j]? = some i → (s.desc i).life = .queued b tr →
    t.desc i = ⟨(s.desc i).generation,
      if j < a.collectWaits.length then .collected b tr ⟨.undelivered, none⟩ else .returning b tr ⟨.undelivered, none⟩⟩

/-- What the bounce does to the descriptors of the forward queue of `a`: where buffers come back they do so and no block is
touched; elsewhere each becomes FREE. No other descriptor changes (R53, R54). -/
def State.bounces (s t : State) (a : Active) : Prop :=
  (∀ i : DescIx, i ∉ a.forward → t.desc i = s.desc i) ∧
    (s.givesBack a = true → s.undelivered t a ∧ s.freedAll t []) ∧ (s.givesBack a = false → s.freedAll t a.forward)

/-- How a close of channel `k` by `closer` ends at the other end: where it unbinds, the waiting COLLECTs `ws` complete CLOSED
and CHANNEL_UNBOUND follows; elsewhere the notice `kind` with the end that closed (R56, R179). -/
def Hpi.afterClose (h : Hpi) (k : ChanIx) (unbinds : Bool) (ws : List Wait) (kind : NoticeKind) (closer : Port)
    (stamp : Word) : Hpi :=
  let v : Vals := { channel := BitVec.ofNat 4 k.val }
  if unbinds then (h.afterAll ws .collect .closed v stamp).afterNotice .channelUnbound v stamp
  else h.afterNotice kind { v with v0 := BitVec.ofNat 16 (portCode closer) } stamp

/-! #### The reclaim start, channel by channel -/

/-- The descriptors a reclaim start of `p` frees, in the order it frees them: channel by channel, the return queue of a
channel `p` produces and the bounced queue of one it consumes, had not closed, and gives nothing back on (R53, R54, R166,
R167). -/
def State.freedByReclaim (s : State) (p : Port) : List DescIx :=
  (List.finRange 16).flatMap fun k =>
    match s.chan k with
    | .unbound | .offered _ _ _ => []
    | .active a =>
      if a.params.producer = p then a.returns
      else if a.params.consumer = p ∧ a.closedConsumer = false ∧ s.givesBack a = false then a.forward
      else []

/-- Channel `a` at the end of its close by its departing consumer, before it may unbind (R84, R166). -/
def State.afterDeparture (s : State) (a : Active) : Active :=
  if a.closedConsumer then { a with takeWaits := [] } else a.afterBounce (s.givesBack a)

/-- What a reclaim start of `p` leaves of channel `k`: an offer of which `p` is an end is gone (R165); a channel it produces
is closed with its return queue freed, one it consumes is closed and bounced, and either unbinds with nothing in transit
(R166, R56). -/
def State.chanAfterReclaim (s : State) (p : Port) (k : ChanIx) : Chan :=
  match s.chan k with
  | .unbound => .unbound
  | .offered m tag timer => if m.producer = p ∨ m.consumer = p then .unbound else .offered m tag timer
  | .active a =>
    if a.params.producer = p then
      if a.forward.length + s.heldCount k = 0 then .unbound
      else
        .active { a with
          closedProducer := true
          takeWaits := if a.closedProducer then a.takeWaits else []
          collectWaits := []
          returns := [] }
    else if a.params.consumer = p then
      let b := s.afterDeparture a
      if b.forward.length + s.heldCount k + b.returns.length = 0 then .unbound else .active b
    else .active a

/-- The HPI `h` of port `q` after what a reclaim start of `p` writes to it for channel `k`. For an offer, CHANNEL_UNBOUND to
its consumer or PEER_GONE to its producer (R165). Where the producer of an OPEN or CLOSING channel departs, the CLOSED
completions of the waiting TAKEs if it had not closed its end, then PEER_DETACHED or CHANNEL_UNBOUND. Where the consumer
departs, the bounce if it had not closed its end, then PEER_DETACHED, or the CLOSED completions of the remaining COLLECTs
and CHANNEL_UNBOUND (R166, R179). -/
def State.toldByReclaim (s : State) (p q : Port) (h : Hpi) (k : ChanIx) : Hpi :=
  let v : Vals := { channel := BitVec.ofNat 4 k.val }
  match s.chan k with
  | .unbound => h
  | .offered m tag _ =>
    if m.producer = p ∧ m.consumer = q then h.afterNotice .channelUnbound v s.stamp
    else if m.consumer = p ∧ m.producer = q then
      h.afterCompletion tag .offer .peerGone { v with v0 := BitVec.ofNat 16 (portCode p) } s.stamp
    else h
  | .active a =>
    if a.params.producer = p ∧ a.params.consumer = q then
      (if a.closedProducer then h else h.afterAll a.takeWaits .take .closed v s.stamp).afterClose k
        (decide (a.forward.length + s.heldCount k = 0)) [] .peerDetached p s.stamp
    else if a.params.consumer = p ∧ a.params.producer = q then
      let b := s.afterDeparture a
      (if a.closedConsumer then h else s.toldOfBounce k a h).afterClose k
        (decide (b.forward.length + s.heldCount k + b.returns.length = 0)) b.collectWaits .peerDetached p s.stamp
    else h

/-- The requests of port `q` that wait on channels, with their kinds: OFFERs, TAKEs and COLLECTs, in channel order. -/
def State.waitsOf (s : State) (q : Port) : List (Tag × ReqKind) :=
  (List.finRange 16).flatMap fun k =>
    match s.chan k with
    | .unbound => []
    | .offered m tag _ => if m.producer = q then [(tag, .offer)] else []
    | .active a =>
      (if a.params.consumer = q then a.takeWaits.map (fun w => (w.tag, .take)) else []) ++
        (if a.params.producer = q then a.collectWaits.map (fun w => (w.tag, .collect)) else [])

/-- A channel goes on after an event that takes one buffer out of transit on it: it is not CLOSING, or another buffer is in
transit (R56). -/
def State.goesOn (s : State) (c : ChanIx) : Prop := (s.chan c).state ≠ .closing ∨ 1 < s.inTransit c

/-! #### Accesses -/

/-- What a refused aperture access of port `p` at `addr` does (R106, R109, R110): a STALE fault empties the slot, an empty
capture record becomes valid with ACCESS_FAULT raised and a valid one has its more flag set, a read returns 0x0000, and
nothing else changes. -/
def State.faulted (s t : State) (p : Port) (addr : BitVec 14) (dir : Direction) (f : FaultKind) : Prop :=
  let k := apertureSlot addr
  let o := apertureOffset addr
  let h := s.hpi p
  let h1 := if f = .stale then { h with apertures := h.apertures.set k none } else h
  let h2 :=
    match h.capture with
    | some r => { h1 with capture := some { r with more := true } }
    | none =>
      { h1 with capture := some ⟨k, o, dir, f, false⟩ }.afterNotice .accessFault
        { v0 := word k.val, v1 := word o, v2 := word (faultCode f), v3 := word (directionCode dir) } s.stamp
  t.hpi p = (if dir = .read then { h2 with dataOut := 0#16 } else h2) ∧ s.othersKept t p ∧ t = { s with ports := t.ports }

/-- An aperture access of port `p` at `addr` in direction `dir` passes the four steps of the access check, and so reaches
descriptor `i` mapped by handle `h` (R104, R105). -/
def State.reaches (s : State) (p : Port) (addr : BitVec 14) (dir : Direction) (h : Word) (i : DescIx) : Prop :=
  s.busTaken p = true ∧ s.online p = true ∧ (s.hpi p).apertures[apertureSlot addr] = some h ∧ handleIx h = i ∧
    s.live p h = true ∧ apertureOffset addr < (s.desc i).extent ∧ (s.desc i).grants dir (apertureOffset addr) = true

/-- The stored words but `w` hold what they held, with the errors they had. -/
def State.otherWords (s t : State) (w : MemIx) : Prop :=
  ∀ v : MemIx, v ≠ w → t.written v = s.written v ∧ t.upset v = s.upset v

/-- The descriptor with its damaged flag set and everything else as it was: its generation, its state, and every field of
that state (R9). -/
def Desc.withDamage (d : Desc) : Desc :=
  let set := fun b : Buf => { b with damaged := true }
  ⟨d.generation,
    match d.life with
    | .free => .free
    | .filling b => .filling (set b)
    | .queued b t => .queued (set b) t
    | .held b t p k n => .held (set b) t p k n
    | .returning b t r => .returning (set b) t r
    | .collected b t r => .collected (set b) t r⟩

/-- What an uncorrectable error found at offset `o` of descriptor `i` marks: its block is suspect, the buffer is damaged and
keeps everything else, and the accessing port, whose HPI goes from `h` to `after`, receives DATA_DAMAGED if the flag was
clear (R117, R118, R120). -/
def State.marked (s t : State) (i : DescIx) (o : Nat) (dir : Direction) (h : Hpi) (after : Hpi) : Prop :=
  t.block ((s.desc i).blockAt o) = { s.block ((s.desc i).blockAt o) with suspect := true } ∧
    (∀ b : BlockIx, b ≠ (s.desc i).blockAt o → t.block b = s.block b) ∧
    t.desc i = (s.desc i).withDamage ∧ s.otherDescs t i ∧
    after = (if (s.desc i).damaged then h
      else h.afterNotice .dataDamaged
        { v0 := s.handle i, v1 := word (o / 256), v2 := word (directionCode dir) } s.stamp)

/-- The kind field of the staged request: bits 7 to 0 of staging word 0 (R177). -/
def Hpi.kindField (h : Hpi) : Nat := h.staging[0].toNat % 256

/-- The tag field of the staged request: bits 15 to 8 of staging word 0 (R177). -/
def Hpi.tagField (h : Hpi) : Nat := h.staging[0].toNat / 256

/-- The answer of the submit word: the first row of R132's table that applies, as the formats chapter encodes it. -/
def State.answerByTable (s : State) (p : Port) : Word :=
  let h := s.hpi p
  if s.device = .initialising then 0x0001#16
  else if (∃ i, h.state = .reclaiming i) then 0x0002#16
  else if h.state = .offline ∧ h.kindField ≠ 1 then 0x0003#16
  else if h.kindField = 0 ∨ 24 ≤ h.kindField then 0x0004#16
  else if (∃ e ∈ h.table, e.req.tag.toNat = h.tagField) then 0x0005#16
  else if h.table.length = 8 ∨ 8 < h.table.length then 0x0006#16
  else if h.queue.length + h.table.length = 32 ∨ 32 < h.queue.length + h.table.length then 0x0007#16
  else 0x0008#16

end Sys2Proof.Machine
end

