-- ==== Sys2Proof/WellFormed.lean ====
section
/-!
DEFINITION. Well-formed commands: those the opcode table's own words allow a row to be. A command that is not well formed
still runs (see `Machine.execRegisterWrite`, `Machine.execStoredBitUpset`); the check says what the row is meant for.
-/

namespace Sys2Proof

/-- The window words with a row of their own, by word address: the aperture slots, the consume word 0x8030, the attention
enable word 0x8042 and the fault clear word 0x804A (R173). -/
def hasOwnWriteRow (addr : BitVec 15) : Bool :=
  decide (addr.toNat < 0x4000) || addr == 0x4018#15 || addr == 0x4021#15 || addr == 0x4025#15

/-- REGISTER_WRITE is a write to a window word with no behaviour of its own; STORED_BIT_UPSET upsets one or more of the
22 stored bits or gives a cell a lasting fault. Every other command is well formed with every operand. -/
def Instr.wf : Instr → Bool
  | .registerWrite _ addr _ => !hasOwnWriteRow addr
  | .storedBitUpset _ flips stuck _ => flips != 0#22 || stuck != 0#22
  | .submission _ | .consume _ _ | .attentionEnableWrite _ _ | .faultClear _ _ | .tickLowRead _
  | .apertureRead _ _ | .apertureWrite _ _ _ | .attach _ | .detach _ | .cancel _ | .allocate _ | .free _
  | .refill _ | .grant _ | .retest _ | .queryPool _ | .offer _ | .withdraw _ | .accept _ | .reject _
  | .close _ | .queryChannel _ | .post _ | .take _ | .collect _ | .release _ | .returnBuffer _ | .renew _
  | .mapSlot _ | .unmapSlot _ | .poolReexamination | .tick | .allocationWaitExpiry _ _ | .takeWaitExpiry _ _
  | .collectWaitExpiry _ _ | .offerExpiry _ | .holdExpiry _ | .blockTestEnd | .reclaimWalkStep _
  | .portResetAssert _ | .portResetRelease _ | .deviceReset | .memoryClear | .deviceReady => true

end Sys2Proof
end

