-- ==== Sys2Proof/Certificates/Slice0/Obligations.lean ====
section
/-!
DEFINITION. The statements for the provers, taken from the spec's numbered rules family by family: the step, the bus, the
ports, the pool, the channels, buffer memory, the laws of the device, and what every command leaves alone. OBLIGATIONS.json
names the rule or the sections each one rests on.
-/

section

open Sys2Proof Sys2Proof.Machine

/-! ### The step -/

/-- One step takes the command at the front of the queue and is that command's `exec` on the state with the queue's rest;
on an empty queue the block idles, which is the model's choice (assumption 9). -/
def Obligations.StepRunsFrontCommand : Prop :=
  (∀ (s : State) (c : Instr) (rest : List Instr), s.pending = c :: rest → step s = exec c { s with pending := rest }) ∧
    ∀ s : State, s.pending = [] → step s = .next s

/-- No command reads the queue of waiting commands or changes it: with another queue in the state, each command does the
same to everything else and leaves that queue as it is. The queue is the model's (assumption 10). -/
def Obligations.CommandsIgnoreTheQueue : Prop :=
  ∀ (c : Instr) (s t : State) (q : List Instr), exec c s = .next t →
    exec c { s with pending := q } = .next { t with pending := q }

/-- The tick counter moves only at a tick and at device reset, the device state only at device reset and at the end of the
memory clear, the level of nRESET only at its assertion and its release, and the level of a port reset input only at its
own (2.7, 5.1, 10.2). That State keeps the word of a port's latest read is the model's choice (assumption 15): the word moves
only at the port's own reads, at its submissions and, by assumption 11, at device reset. -/
def Obligations.ClockAndInputsMoveOnlyAtTheirEvents : Prop :=
  ∀ (c : Instr) (s t : State), exec c s = .next t →
    (c ≠ .tick → c ≠ .deviceReset → t.ticks = s.ticks) ∧
      (c ≠ .deviceReset → c ≠ .deviceReady → t.device = s.device) ∧
      (c ≠ .deviceReset → c ≠ .memoryClear → t.resetIn = s.resetIn) ∧
      ∀ p : Port,
        (c ≠ .portResetAssert p → c ≠ .portResetRelease p → (t.hpi p).resetIn = (s.hpi p).resetIn) ∧
          (c ≠ .submission p → c ≠ .attach p → c ≠ .tickLowRead p → (∀ a, c ≠ .apertureRead p a) → c ≠ .deviceReset →
            (t.hpi p).dataOut = (s.hpi p).dataOut)

/-! ### The laws of the device -/

/-- Every law holds in the machine right after reset. -/
def Obligations.LawsHoldAtReset : Prop :=
  State.reset.portLaw ∧ State.reset.tagLaw ∧ State.reset.quotaLaw ∧ State.reset.demandLaw ∧ State.reset.blockLaw ∧
    State.reset.markLaw ∧ State.reset.retestLaw ∧ State.reset.endsLaw ∧ State.reset.queueLaw ∧ State.reset.depthLaw ∧
    State.reset.sequenceLaw ∧ State.reset.waitLaw ∧ State.reset.closingLaw ∧ State.reset.waiterLaw ∧
    State.reset.walkLaw ∧ State.reset.transitLaw ∧ State.reset.resetLaw ∧ State.reset.reexamLaw ∧ State.reset.memoryWf

/-- The law of R137 and that of R154, with what each port that is not ONLINE holds, is kept by every command, together with
the tags of each request table differing (R136). -/
def Obligations.PortLawKept : Prop :=
  ∀ (c : Instr) (s t : State), s.portLaw → s.tagLaw → exec c s = .next t → t.portLaw ∧ t.tagLaw

/-- The laws of R23 and R24 are kept by every command, and only GRANT and device reset move quota. -/
def Obligations.QuotaLawsKept : Prop :=
  ∀ (c : Instr) (s t : State), exec c s = .next t →
    (s.quotaLaw → t.quotaLaw) ∧ ((∀ p : Port, c ≠ .grant p) → c ≠ .deviceReset → t.quotas = s.quotas) ∧
      (s.demandLaw → t.demandLaw)

/-- The law of R18, with the marks of R17 and the place of the block under test (R122, R125), is kept by every command. -/
def Obligations.BlockLawKept : Prop :=
  ∀ (c : Instr) (s t : State), s.blockLaw → s.markLaw → s.retestLaw → exec c s = .next t →
    t.blockLaw ∧ t.markLaw ∧ t.retestLaw

/-- The law of R11 is kept by every command, and with it the ends named in the records of descriptors in transit
(R4, R67). -/
def Obligations.QueueLawKept : Prop :=
  ∀ (c : Instr) (s t : State), s.queueLaw → s.transitLaw → exec c s = .next t → t.queueLaw ∧ t.transitLaw

/-- The law of R42 is kept by every command, and a CLOSING channel always has a buffer in transit (R56), from states in
which descriptors and queues agree (R11). -/
def Obligations.DepthLawKept : Prop :=
  ∀ (c : Instr) (s t : State), s.queueLaw → s.transitLaw → s.depthLaw → s.closingLaw → exec c s = .next t →
    t.depthLaw ∧ t.closingLaw

/-- The law of R62 in its closer form is kept by every command, from states in which descriptors and queues agree (R11) and
the wait lists stand only where R69 and R72 let them; and so are those conditions on the wait lists. -/
def Obligations.SequenceAndWaitLawsKept : Prop :=
  ∀ (c : Instr) (s t : State), exec c s = .next t →
    (s.queueLaw → s.waitLaw → s.sequenceLaw → t.sequenceLaw) ∧ (s.waitLaw → t.waitLaw)

/-- A port that is not ONLINE has nothing waiting, an OFFLINE port holds no descriptor, and a reclaim walk leaves none
behind it: kept by every command (R31, R84, R161, R168). -/
def Obligations.DepartedPortsHoldNothing : Prop :=
  ∀ (c : Instr) (s t : State), s.queueLaw → s.transitLaw → s.waiterLaw → s.walkLaw → exec c s = .next t →
    t.waiterLaw ∧ t.walkLaw

/-- The allocation wait list never stands with a head that could be served and no re-examination called for: kept by every
command (R28, R29). -/
def Obligations.ReexaminationLawKept : Prop :=
  ∀ (c : Instr) (s t : State), s.reexamLaw → exec c s = .next t → t.reexamLaw

/-- What reset leaves closed stays closed: INITIALISING while nRESET is asserted, every port OFFLINE while INITIALISING, no
port ONLINE while its reset input is asserted; kept by every command (R36, R37, R163). -/
def Obligations.ResetLawKept : Prop :=
  ∀ (c : Instr) (s t : State), s.resetLaw → exec c s = .next t → t.resetLaw

/-- Buffer memory, its upsets and its lasting faults stay in canonical form, so that equal memories are equal data; the
canonical form is the model's (assumption 12). -/
def Obligations.MemoryFormKept : Prop :=
  ∀ (c : Instr) (s t : State), s.memoryWf → exec c s = .next t → t.memoryWf

/-- Where each block is in one place (R18), at most one port can write any given word of buffer memory (R105). -/
def Obligations.OneWriterPerWord : Prop := ∀ s : State, s.blockLaw → s.writerLaw

/-- The generation of a descriptor is 0 after device reset, rises by one, modulo 256, at the event at which the descriptor
becomes FREE, and is left alone by everything else; it is the high byte of the handle (R2). -/
def Obligations.GenerationCountsLives : Prop :=
  (∀ (s t : State) (i : DescIx), exec .deviceReset s = .next t → (t.desc i).generation = 0#8) ∧
    (∀ (c : Instr) (s t : State) (i : DescIx), c ≠ .deviceReset → exec c s = .next t →
      (t.desc i).generation =
        if (s.desc i).state ≠ .free ∧ (t.desc i).state = .free then (s.desc i).generation + 1#8
        else (s.desc i).generation) ∧
    ∀ (s : State) (i : DescIx),
      (s.handle i).extractLsb' 8 8 = (s.desc i).generation ∧ (s.handle i).extractLsb' 0 8 = BitVec.ofNat 8 i.val

/-- No command makes a transition that the table of section 1.2 does not list, and a descriptor that stays out of FREE keeps
its origin and its block list, and its damaged flag once set (R3, R5, R9). -/
def Obligations.DescriptorLives : Prop :=
  ∀ (c : Instr) (s t : State) (i : DescIx), exec c s = .next t →
    ((s.desc i).state = (t.desc i).state ∨ (t.desc i).state = .free ∨
        ((s.desc i).state, (t.desc i).state) ∈
          [(DescState.free, DescState.filling), (.filling, .queued), (.filling, .held), (.queued, .held),
            (.queued, .returning), (.queued, .collected), (.held, .returning), (.held, .collected),
            (.returning, .collected), (.collected, .filling)]) ∧
      ((s.desc i).state ≠ .free → (t.desc i).state ≠ .free →
        (s.desc i).buf.map Buf.origin = (t.desc i).buf.map Buf.origin ∧
          (s.desc i).blockList = (t.desc i).blockList ∧ ((s.desc i).damaged = true → (t.desc i).damaged = true))

/-- No command changes a channel's state but as the table of section 3.1 lists, a bound channel keeps its kind, ends and
limits and its closed flags once set (R41, R89), and no channel comes to have one port at both ends (R41). -/
def Obligations.ChannelLives : Prop :=
  ∀ (c : Instr) (s t : State) (k : ChanIx), exec c s = .next t →
    ((s.chan k).state = (t.chan k).state ∨ (t.chan k).state = .unbound ∨
        ((s.chan k).state, (t.chan k).state) ∈
          [(ChanState.unbound, ChanState.offered), (.offered, .opened), (.opened, .closing)]) ∧
      ((s.chan k).state ≠ .unbound → (t.chan k).state ≠ .unbound → (t.chan k).params? = (s.chan k).params?) ∧
      (∀ a b : Active, s.chan k = .active a → t.chan k = .active b →
        (a.closedProducer = true → b.closedProducer = true) ∧ (a.closedConsumer = true → b.closedConsumer = true)) ∧
      (s.endsLaw → t.endsLaw)

/-! ### The port bus -/

/-- A read of the submit word answers by the table of R132; an answer other than ACCEPTED changes nothing, a write to the word
submits nothing, and while the port's bus is ignored the read returns 0x0000 and submits nothing (R132). -/
def Obligations.SubmissionAnswers : Prop :=
  (∀ (s : State) (p : Port), s.busTaken p = true →
    ∃ t, exec (.submission p) s = .next t ∧ (t.hpi p).dataOut = s.answerByTable p ∧
      (s.answerByTable p ≠ 0x0008#16 → t = s.setHpi p { s.hpi p with dataOut := s.answerByTable p })) ∧
    (∀ (s : State) (p : Port), s.busTaken p = false →
      exec (.submission p) s = .next (s.setHpi p { s.hpi p with dataOut := 0#16 })) ∧
    ∀ (s : State) (p : Port) (w : BusWrite), exec (.registerWrite p 0x4008#15 w) s = .next s

/-- A submission of an ONLINE port that is answered ACCEPTED enters the staged record, decoded as R177 lays it out, behind
the entries accepted before it, in state PENDING, and changes nothing else but the word of the read (R133). An ATTACH
submitted by an OFFLINE port while the device is READY makes the port ONLINE in that event, and its completion carries quota
and charge; one presented while the port is ONLINE completes WRONG_STATE and changes nothing else (R134, R161). That the
command ATTACH of an OFFLINE port is that submission is the model's reading (assumption 13). -/
def Obligations.AcceptedSubmissionsAndAttach : Prop :=
  (∀ (s : State) (p : Port), s.busTaken p = true → s.online p = true → s.answerByTable p = 0x0008#16 →
    ∃ (t : State) (r : Request), exec (.submission p) s = .next t ∧
      t = s.setHpi p { s.hpi p with table := (s.hpi p).table ++ [⟨r, .pending⟩], dataOut := 0x0008#16 } ∧
      kindCode r.kind = (s.hpi p).kindField ∧ r.tag.toNat = (s.hpi p).tagField ∧
      r.handle = (s.hpi p).staging[1] ∧
      r.channel.toNat = (s.hpi p).staging[2].toNat % 32 ∧
      r.peer.toNat = (s.hpi p).staging[2].toNat / 32 % 8 ∧
      r.chanKind.toNat = (s.hpi p).staging[2].toNat / 256 % 4 ∧
      r.slot.toNat = (s.hpi p).staging[2].toNat / 1024 ∧
      r.count = (s.hpi p).staging[3] ∧ r.length = (s.hpi p).staging[4] ∧ r.replyOpen = (s.hpi p).staging[5] ∧
      r.replyClose = (s.hpi p).staging[6] ∧ r.limit = (s.hpi p).staging[7]) ∧
    (∀ (s : State) (p : Port) (c : Instr), c = .submission p ∨ c = .attach p → s.busTaken p = true →
    s.device = .ready → (s.hpi p).state = .offline → (s.hpi p).bare → (s.hpi p).kindField = 1 →
    exec c s = .next (s.setHpi p { s.hpi p with
      state := .online
      dataOut := 0x0008#16
      queue := [.completion .done (BitVec.ofNat 8 (s.hpi p).tagField) .attach
        { v0 := BitVec.ofNat 16 (s.quotas.get p), v1 := BitVec.ofNat 16 (s.charged p) } s.stamp] })) ∧
    ∀ (s : State) (p : Port) (r : Request), s.presents .attach p r →
      ∃ t, exec (.attach p) s = .next t ∧ s.onlyCompletes t p r .wrongState {}

/-- A write to a staging word stores the bytes the strobes select, in every port state, and a write to any other word
without a behaviour of its own changes nothing; a write to the fault clear word of an ONLINE port empties its capture
record, whatever the value and strobes; nothing is taken while the port's bus is ignored (R110, R111, R128, R173). -/
def Obligations.WindowWrites : Prop :=
  (∀ (s : State) (p : Port) (addr : BitVec 15) (k : Fin 8) (w : BusWrite), s.busTaken p = true →
    addr.toNat = 0x4000 + k.val →
    ∃ t, exec (.registerWrite p addr w) s = .next t ∧
      t = s.setHpi p { s.hpi p with staging := (t.hpi p).staging } ∧
      ((t.hpi p).staging[k]).extractLsb' 0 8 =
        (if w.low then w.data.extractLsb' 0 8 else ((s.hpi p).staging[k]).extractLsb' 0 8) ∧
      ((t.hpi p).staging[k]).extractLsb' 8 8 =
        (if w.high then w.data.extractLsb' 8 8 else ((s.hpi p).staging[k]).extractLsb' 8 8) ∧
      ∀ j : Fin 8, j ≠ k → (t.hpi p).staging[j] = (s.hpi p).staging[j]) ∧
    (∀ (s : State) (p : Port) (addr : BitVec 15) (w : BusWrite), (Instr.registerWrite p addr w).wf = true →
      (s.busTaken p = false ∨ 0x4008 ≤ addr.toNat) → exec (.registerWrite p addr w) s = .next s) ∧
    ∀ (s : State) (p : Port) (w : BusWrite),
      exec (.faultClear p w) s = .next
        (if s.busTaken p = true ∧ s.online p = true then s.setHpi p { s.hpi p with capture := none } else s)

/-- A write of any value to the consume word removes the head record, and writes the SUMMARY record in its place at the tail
if the notice summary is non-empty; an empty queue, and a port whose bus is ignored, are left as they are; a read of the
word returns 0x0000 (R151). -/
def Obligations.ConsumeRemovesTheHead : Prop :=
  ∀ (s : State) (p : Port) (w : BusWrite),
    (∀ x rest, s.busTaken p = true → (s.hpi p).queue = x :: rest → (s.hpi p).summaryEmpty = true →
      exec (.consume p w) s = .next (s.setHpi p { s.hpi p with queue := rest })) ∧
      (∀ x rest, s.busTaken p = true → (s.hpi p).queue = x :: rest → (s.hpi p).summaryEmpty = false →
        exec (.consume p w) s = .next (s.setHpi p { s.hpi p with
          queue := rest ++ [.summary (s.hpi p).sumKinds (s.hpi p).sumChannels s.stamp]
          sumKinds := 0#11
          sumChannels := 0#16 })) ∧
      ((s.busTaken p = false ∨ (s.hpi p).queue = [] ∨ ((s.hpi p).law ∧ s.online p = false)) →
        exec (.consume p w) s = .next s) ∧
      s.plainRead p 0x4018#15 = some 0#16

/-- The port status word shows the device state, the port state and the two counts in the bits of R174, in every port state,
and 0x0000 while the bus is ignored; the attention enable word shows the enable in bit 0, and a write of it is taken from an
ONLINE port with the low byte strobe alone; the enable is clear after device reset and after a reclaim start (R174). The
attention output is asserted exactly while the port is ONLINE, its enable is set and a record stands in its queue, and so
it is released while the port's reset input is asserted and while the device is INITIALISING (R158). -/
def Obligations.StatusEnableAndAttention : Prop :=
  (∀ (s : State) (p : Port), s.busTaken p = true → (s.hpi p).law →
    ∃ w, s.plainRead p 0x4020#15 = some w ∧ (w.getLsbD 0 = true ↔ s.device = .ready) ∧
      (w.extractLsb' 1 2).toNat =
        (match (s.hpi p).state with
          | .offline => 0
          | .online => 1
          | .reclaiming _ => 2) ∧
      w.getLsbD 3 = false ∧ (w.extractLsb' 4 6).toNat = (s.hpi p).occupied ∧
      (w.extractLsb' 10 4).toNat = (s.hpi p).outstanding ∧ (w.extractLsb' 14 2).toNat = 0) ∧
    (∀ (s : State) (p : Port), s.busTaken p = false → s.plainRead p 0x4020#15 = some 0#16) ∧
    (∀ (s : State) (p : Port), s.busTaken p = true →
      s.plainRead p 0x4021#15 = some (if (s.hpi p).attnEnable then 0x0001#16 else 0x0000#16)) ∧
    (∀ (s : State) (p : Port) (w : BusWrite),
      exec (.attentionEnableWrite p w) s = .next
        (if s.busTaken p = true ∧ s.online p = true ∧ w.low = true
          then s.setHpi p { s.hpi p with attnEnable := w.data.getLsbD 0 } else s)) ∧
    (∀ (s : State) (p : Port),
      (s.attention p = true ↔
          (s.hpi p).state = .online ∧ (s.hpi p).attnEnable = true ∧ 1 ≤ (s.hpi p).queue.length) ∧
        (s.resetLaw → (s.hpi p).resetIn = true ∨ s.device = .initialising → s.attention p = false)) ∧
    ∀ (c : Instr) (s t : State) (p : Port), exec c s = .next t →
      (c = .deviceReset ∨ (s.online p = true ∧ ∃ i, (t.hpi p).state = .reclaiming i)) → (t.hpi p).attnEnable = false

/-- A read of the tick low word returns the low half of the counter and latches the high half for its own port; the tick high
word returns the latch; the latch is 0 after device reset and no other command moves it; a read that is not taken returns
0x0000 and does not load the latch (R175). -/
def Obligations.TickWords : Prop :=
  (∀ (s : State) (p : Port), s.busTaken p = true →
    exec (.tickLowRead p) s = .next (s.setHpi p { s.hpi p with
      dataOut := s.ticks.extractLsb' 0 16
      tickLatch := s.ticks.extractLsb' 16 16 }) ∧ s.plainRead p 0x4027#15 = some (s.hpi p).tickLatch) ∧
    (∀ (s : State) (p : Port), s.busTaken p = false →
      exec (.tickLowRead p) s = .next (s.setHpi p { s.hpi p with dataOut := 0#16 })) ∧
    ∀ (c : Instr) (s t : State) (p : Port), exec c s = .next t →
      (c = .deviceReset → (t.hpi p).tickLatch = 0#16) ∧
        (c ≠ .deviceReset → c ≠ .tickLowRead p → (t.hpi p).tickLatch = (s.hpi p).tickLatch)

/-! ### Apertures -/

/-- An aperture access of an ONLINE port is refused for the first step of R104 that fails, with the effects of R106, R109 and
R110; an access of a port that is not ONLINE, or whose bus is ignored, is not checked (R111). -/
def Obligations.ApertureFaults : Prop :=
  ∀ (s : State) (p : Port) (addr : BitVec 14) (dir : Direction) (w : BusWrite) (c : Instr),
    c = (match dir with
      | .read => .apertureRead p addr
      | .write => .apertureWrite p addr w) →
    (s.busTaken p = true → s.online p = true →
      ((s.hpi p).apertures[apertureSlot addr] = none →
        ∃ t, exec c s = .next t ∧ s.faulted t p addr dir .unmapped) ∧
      (∀ h, (s.hpi p).apertures[apertureSlot addr] = some h → s.live p h = false →
        ∃ t, exec c s = .next t ∧ s.faulted t p addr dir .stale) ∧
      (∀ h, (s.hpi p).apertures[apertureSlot addr] = some h → s.live p h = true →
        (s.desc (handleIx h)).extent ≤ apertureOffset addr →
        ∃ t, exec c s = .next t ∧ s.faulted t p addr dir .outOfExtent) ∧
      (∀ h, (s.hpi p).apertures[apertureSlot addr] = some h → s.live p h = true →
        apertureOffset addr < (s.desc (handleIx h)).extent →
        (s.desc (handleIx h)).grants dir (apertureOffset addr) = false →
        ∃ t, exec c s = .next t ∧ s.faulted t p addr dir .writeDenied)) ∧
    (s.busTaken p = false ∨ s.online p = false →
      exec c s = .next (if dir = .read then s.setHpi p { s.hpi p with dataOut := 0#16 } else s))

/-- A granted access to a word whose finding is no error or a corrected error, with what R114 fixes of the finding: none for
no wrong bit, the word as written corrected for one, uncorrectable for two. A read that finds no error returns the data bits
as read and stores nothing; one that finds a corrected error returns the corrected word and writes it back. A write stores
the bytes its strobes select; one of a single byte keeps the other byte as read, or as corrected; one without a strobe
touches nothing. No other word, mark, flag, notice or capture record changes (R107, R108, R114, R116). Which finding an error
of three or more bits makes, and what word it corrects to, is left free (assumption 4). -/
def Obligations.ApertureAccessServed : Prop :=
  ∀ (s : State) (p : Port) (addr : BitVec 14) (dir : Direction) (h : Word) (i : DescIx), s.memoryWf →
    s.reaches p addr dir h i →
    let w := (s.desc i).wordAt (apertureOffset addr)
    let asRead := s.written w ^^^ (s.wordErrors w).setWidth 16
    let stored := fun (t : State) (d : Word) =>
      t.written w = d ∧ t.upset w = 0#22 ∧ s.otherWords t w ∧ (s.stuck w = Stuck.none → t.finding w = .noError)
    (s.wordErrors w = 0#22 → s.finding w = .noError ∧ asRead = s.written w) ∧
    (bitCount (s.wordErrors w) = 1 → s.finding w = .corrected (s.written w)) ∧
    (bitCount (s.wordErrors w) = 2 → s.finding w = .uncorrectable) ∧
    (dir = .read → s.finding w = .noError →
      exec (.apertureRead p addr) s = .next (s.setHpi p { s.hpi p with dataOut := asRead })) ∧
    (∀ d : Word, dir = .read → s.finding w = .corrected d →
      ∃ t, exec (.apertureRead p addr) s = .next t ∧ stored t d ∧
        t = { s.setHpi p { s.hpi p with dataOut := d } with mem := t.mem, upsets := t.upsets }) ∧
    (∀ x : BusWrite, dir = .write → x.low = true → x.high = true →
      ∃ t, exec (.apertureWrite p addr x) s = .next t ∧ stored t x.data ∧
        t = { s with mem := t.mem, upsets := t.upsets }) ∧
    (∀ (x : BusWrite) (old : Word), dir = .write → x.low ≠ x.high →
      (s.finding w = .noError ∧ old = asRead ∨ s.finding w = .corrected old) →
      ∃ t, exec (.apertureWrite p addr x) s = .next t ∧
        stored t ((if x.high then x.data.extractLsb' 8 8 else old.extractLsb' 8 8) ++
          (if x.low then x.data.extractLsb' 0 8 else old.extractLsb' 0 8)) ∧
        t = { s with mem := t.mem, upsets := t.upsets }) ∧
    ∀ x : BusWrite, dir = .write → x.low = false → x.high = false → exec (.apertureWrite p addr x) s = .next s

/-- A granted read of a word with an uncorrectable error returns the data bits as read and stores nothing; a one-byte write
merges with the data bits as read and stores the word with a fresh code; each marks the block and the buffer, and raises
DATA_DAMAGED if the flag was clear (R117, R118). -/
def Obligations.UncorrectableErrorsMark : Prop :=
  ∀ (s : State) (p : Port) (addr : BitVec 14) (dir : Direction) (h : Word) (i : DescIx), s.memoryWf →
    s.reaches p addr dir h i →
    let o := apertureOffset addr
    let w := (s.desc i).wordAt o
    let asRead := s.written w ^^^ (s.wordErrors w).setWidth 16
    s.finding w = .uncorrectable →
    (dir = .read →
      ∃ (t : State) (after : Hpi), exec (.apertureRead p addr) s = .next t ∧
        s.marked t i o .read (s.hpi p) after ∧ t.finding w = .uncorrectable ∧
        t = { s.setHpi p { after with dataOut := asRead } with descs := t.descs, blocks := t.blocks }) ∧
    ∀ x : BusWrite, dir = .write → x.low ≠ x.high →
      ∃ (t : State) (after : Hpi), exec (.apertureWrite p addr x) s = .next t ∧
        s.marked t i o .write (s.hpi p) after ∧
        t.written w = (if x.high then x.data.extractLsb' 8 8 else asRead.extractLsb' 8 8) ++
          (if x.low then x.data.extractLsb' 0 8 else asRead.extractLsb' 0 8) ∧
        t.upset w = 0#22 ∧ s.otherWords t w ∧ (s.stuck w = Stuck.none → t.finding w = .noError) ∧
        t = { s.setHpi p after with descs := t.descs, blocks := t.blocks, mem := t.mem, upsets := t.upsets }

/-- UNMAP and MAP in the order of their checks. A refused MAP leaves the slot and carries slot and handle; an accepted one
writes its handle into the slot; an UNMAP empties a slot, live or stale, and says which it was (R101, R103). -/
def Obligations.MapAndUnmap : Prop :=
  (∀ (s : State) (p : Port) (r : Request), s.presents .mapSlot p r →
    let d := s.desc (handleIx r.handle)
    let v : Vals := { v0 := BitVec.ofNat 16 r.slot.toNat, v1 := r.handle }
    let refused := fun code => ∃ t, exec (.mapSlot p) s = .next t ∧ s.onlyCompletes t p r code v
    if r.handle.getLsbD 7 = true ∨ 8 ≤ r.slot.toNat then refused .badRequest
    else if s.stale r.handle = true then refused .staleHandle
    else if d.holder ≠ some p then refused .notHolder
    else
      ∀ k : Fin 8, k.val = r.slot.toNat →
        match (s.hpi p).apertures[k] with
        | some h =>
          if s.live p h = true then refused .slotInUse
          else exec (.mapSlot p) s = .next (s.setHpi p
            ({ s.hpi p with apertures := (s.hpi p).apertures.set k (some r.handle) }.afterCompletion r.tag .mapSlot .done
              { v with blockCount := d.blockList.length, v2 := 1#16 } s.stamp))
        | none => exec (.mapSlot p) s = .next (s.setHpi p
            ({ s.hpi p with apertures := (s.hpi p).apertures.set k (some r.handle) }.afterCompletion r.tag .mapSlot .done
              { v with blockCount := d.blockList.length, v2 := 0#16 } s.stamp))) ∧
    ∀ (s : State) (p : Port) (r : Request), s.presents .unmapSlot p r →
      (8 ≤ r.slot.toNat → ∃ t, exec (.unmapSlot p) s = .next t ∧ s.onlyCompletes t p r .badRequest {}) ∧
      ∀ k : Fin 8, k.val = r.slot.toNat →
        match (s.hpi p).apertures[k] with
        | none => ∃ t, exec (.unmapSlot p) s = .next t ∧ s.onlyCompletes t p r .notMapped {}
        | some h => exec (.unmapSlot p) s = .next (s.setHpi p
            ({ s.hpi p with apertures := (s.hpi p).apertures.set k none }.afterCompletion r.tag .unmapSlot .done
              { v0 := BitVec.ofNat 16 k.val, v1 := h, v2 := if s.live p h then 1#16 else 0#16 } s.stamp))

/-! ### Requests -/

/-- The refusals of R15, in its order, for each of the seven kinds whose presentation checks a handle: BAD_REQUEST for a
handle with bit 7 set, STALE_HANDLE, NOT_HOLDER, and WRONG_STATE for a descriptor in none of the states that kind accepts;
the completion is all that changes. POST and MAP are shown with their other field in range. What a request that passes the
four checks does stands in the statement of its kind. -/
def Obligations.HandleChecksInOrder : Prop :=
  ∀ (s : State) (k : ReqKind) (p : Port) (r : Request) (accepts : List DescState),
    (k, accepts) ∈
      [(ReqKind.free, [DescState.filling, DescState.collected]), (.refill, [.collected]), (.post, [.filling]),
        (.release, [.held]), (.returnBuffer, [.held]), (.renew, [.held]), (.mapSlot, [.filling, .held, .collected])] →
    s.presents k p r → (k = .post → r.channel.toNat < 16) → (k = .mapSlot → r.slot.toNat < 8) →
    let i : DescIx := handleIx r.handle
    let refused := fun code => ∃ t v, exec (presentation k p) s = .next t ∧ s.onlyCompletes t p r code v
    if r.handle.getLsbD 7 = true then refused .badRequest
    else if (s.desc i).state = .free ∨ (s.desc i).generation ≠ r.handle.extractLsb' 8 8 then refused .staleHandle
    else if (s.desc i).holder ≠ some p then refused .notHolder
    else if (s.desc i).state ∉ accepts then refused .wrongState
    else True

/-- A request of any kind whose presentation writes a refusal as its completion changes nothing but its own port's table and
event queue (R140); the count of free values is the model's own (assumption 2). -/
def Obligations.RefusalChangesNothingElse : Prop :=
  ∀ (s t : State) (k : ReqKind) (p : Port) (r : Request) (code : ResultCode) (v : Vals), s.presents k p r →
    exec (presentation k p) s = .next t → code.isOutcome = false →
    (t.hpi p).queue = (s.hpi p).queue ++ [.completion code r.tag k v s.stamp] →
    t.hpi p = (s.hpi p).afterCompletion r.tag k code v s.stamp ∧ s.othersKept t p ∧
      t = { s with ports := t.ports, freeDraws := t.freeDraws }

/-- CANCEL: a waiting ALLOCATE, TAKE or COLLECT whose entry stands in its list leaves it and completes CANCELLED, and then
the CANCEL completes DONE with the target tag; a target that is not such a request is answered NOT_WAITING, and a count
above 255 BAD_REQUEST (R146, with R31 and R84). -/
def Obligations.CancelRemovesTheTarget : Prop :=
  ∀ (s : State) (p : Port) (r : Request), s.presents .cancel p r →
    (255 < r.count.toNat → ∃ t, exec (.cancel p) s = .next t ∧ s.onlyCompletes t p r .badRequest {}) ∧
    ((∀ e ∈ (s.hpi p).table, e.req.tag.toNat = r.count.toNat →
        e.req.tag = r.tag ∨ e.state ≠ .waiting ∨ e.req.kind = .offer) → r.count.toNat ≤ 255 →
      ∃ t, exec (.cancel p) s = .next t ∧ s.onlyCompletes t p r .notWaiting {}) ∧
    ∀ e ∈ (s.hpi p).table, e.req.tag.toNat = r.count.toNat → e.req.tag ≠ r.tag → e.state = .waiting →
      let both := fun v => ((s.hpi p).afterCompletion e.req.tag e.req.kind .cancelled v s.stamp).afterCompletion r.tag
        .cancel .done { v0 := BitVec.ofNat 16 e.req.tag.toNat } s.stamp
      let own := fun w : Wait => w.tag == e.req.tag
      (e.req.kind = .allocate → (∃ x ∈ s.allocWaits, x.port = p ∧ x.tag = e.req.tag) →
        exec (.cancel p) s = .next { s.setHpi p (both {}) with
          allocWaits := s.allocWaits.eraseP (fun x => decide (x.port = p ∧ x.tag = e.req.tag))
          reexamsDue := s.reexamsDue +
            (match s.allocWaits with
              | [] => 0
              | x :: _ => if x.port = p ∧ x.tag = e.req.tag then 1 else 0) }) ∧
      (∀ a : Active, s.chan e.req.chan = .active a → e.req.kind = .take → a.params.consumer = p →
        (∃ w ∈ a.takeWaits, w.tag = e.req.tag) →
        exec (.cancel p) s = .next ((s.setHpi p (both { channel := BitVec.ofNat 4 e.req.chan.val })).setChan e.req.chan
          (.active { a with takeWaits := a.takeWaits.eraseP own }))) ∧
      ∀ a : Active, s.chan e.req.chan = .active a → e.req.kind = .collect → a.params.producer = p →
        (∃ w ∈ a.collectWaits, w.tag = e.req.tag) →
        exec (.cancel p) s = .next ((s.setHpi p (both { channel := BitVec.ofNat 4 e.req.chan.val })).setChan e.req.chan
          (.active { a with collectWaits := a.collectWaits.eraseP own }))

/-- The words of an event record in the layout of R178: type, code, tag, kind, channel, block count, damaged flag and stamp
in the first three words of each type, the values behind them, and word 0 never zero; and the
values of a TAKE and of a COLLECT completion in their places: handle, channel, sequence, length, producer and reply range,
or outcome and reply length, with block count and damaged flag; the word of an offer's producer, kind, depth limit and
renew limit; and the three fault capture words in the layout of R176 (R67, R79, R176, R178). -/
def Obligations.EventRecordLayout : Prop :=
  (∀ (code : ResultCode) (tag : Tag) (k : ReqKind) (v : Vals) (stamp : Word), v.blockCount ≤ 16 →
    ∃ w0 w1, (EventRecord.completion code tag k v stamp).words = [w0, w1, stamp, v.v0, v.v1, v.v2, v.v3, v.v4] ∧
      (w0.extractLsb' 0 2).toNat = 1 ∧ (w0.extractLsb' 2 6).toNat = resultCode code ∧ w0.extractLsb' 8 8 = tag ∧
      (w1.extractLsb' 0 5).toNat = kindCode k ∧ w1.extractLsb' 5 4 = v.channel ∧ w1.getLsbD 9 = false ∧
      (w1.extractLsb' 10 5).toNat = v.blockCount ∧ w1.getLsbD 15 = v.damaged) ∧
    (∀ (k : NoticeKind) (v : Vals) (stamp : Word),
      ∃ w0 w1, (EventRecord.notice k v stamp).words = [w0, w1, stamp, v.v0, v.v1, v.v2, v.v3, 0#16] ∧
        (w0.extractLsb' 0 2).toNat = 2 ∧ (w0.extractLsb' 2 6).toNat = noticeCode k ∧ w0.extractLsb' 8 8 = 0#8 ∧
        w1.extractLsb' 5 4 = v.channel ∧ w1.extractLsb' 0 5 = 0#5 ∧ w1.extractLsb' 9 7 = 0#7) ∧
    (∀ (kinds : BitVec 11) (channels : BitVec 16) (stamp : Word),
      (EventRecord.summary kinds channels stamp).words =
        [3#16, 0#16, stamp, channels, 0#5 ++ kinds, 0#16, 0#16, 0#16]) ∧
    (∀ (s : State) (p : Port) (k : Nat), s.busTaken p = true → k < 8 →
      s.plainRead p (BitVec.ofNat 15 (0x4010 + k)) = some
        (match (s.hpi p).queue with
          | [] => 0#16
          | x :: _ => x.words.getD k 0#16)) ∧
    (∀ (s : State) (p : Port), s.busTaken p = true →
      match (s.hpi p).capture with
      | none => ∀ addr ∈ [0x4022#15, 0x4023#15, 0x4024#15], s.plainRead p addr = some 0#16
      | some r => r.offset ≤ 0xFFE →
        ∃ w0 w1 w2, s.plainRead p 0x4022#15 = some w0 ∧ s.plainRead p 0x4023#15 = some w1 ∧
          s.plainRead p 0x4024#15 = some w2 ∧ w0.getLsbD 15 = true ∧ w0.getLsbD 14 = r.more ∧
          w0.extractLsb' 9 5 = 0#5 ∧ (w0.getLsbD 8 = true ↔ r.direction = .write) ∧ w0.extractLsb' 3 5 = 0#5 ∧
          (w0.extractLsb' 0 3).toNat =
            (match r.kind with
              | .unmapped => 1
              | .stale => 2
              | .outOfExtent => 3
              | .writeDenied => 4) ∧
          w1.toNat = r.slot.val ∧ w2.toNat = r.offset) ∧
    (∀ m : ChanParams, m.depthLimit ≤ 32 → m.renewLimit ≤ 15 →
      ((offerWord m).extractLsb' 0 3).toNat = portCode m.producer ∧ (offerWord m).getLsbD 3 = false ∧
        ((offerWord m).extractLsb' 4 2).toNat = chanKindCode m.kind ∧
        ((offerWord m).extractLsb' 6 6).toNat = m.depthLimit ∧ ((offerWord m).extractLsb' 12 4).toNat = m.renewLimit) ∧
    ∀ (s : State) (i : DescIx) (b : Buf) (tr : Traffic) (p : Port) (c : Came), tr.length ≤ 4096 →
      (let v := s.takeVals i b tr p
       v.v0 = s.handle i ∧ v.channel = BitVec.ofNat 4 tr.channel.val ∧ v.v1 = tr.sequence ∧
        (v.v2.extractLsb' 0 13).toNat = tr.length ∧ (v.v2.extractLsb' 13 3).toNat = portCode p ∧
        v.v3 = BitVec.ofNat 16 (tr.reply.elim 0 Prod.fst) ∧ v.v4 = BitVec.ofNat 16 (tr.reply.elim 0 Prod.snd) ∧
        v.blockCount = b.blocks.length ∧ v.damaged = b.damaged) ∧
      (let v := s.collectVals i b tr c
       v.v0 = s.handle i ∧ v.channel = BitVec.ofNat 4 tr.channel.val ∧ v.v1 = tr.sequence ∧
        (v.v2.extractLsb' 0 13).toNat = tr.length ∧ (v.v2.extractLsb' 14 2).toNat = outcomeCode c.outcome ∧
        v.v3 = BitVec.ofNat 16 (c.replyLength.getD 0) ∧ v.v4 = 0#16 ∧
        v.blockCount = b.blocks.length ∧ v.damaged = b.damaged)

/-! ### Reclaim and the resets -/

/-- DETACH's presentation, or the assertion of the port reset input of an ONLINE port, is the reclaim start: the port is
RECLAIMING with its walk at index 0 and nothing of its own left, its waits leave every list, its RETEST loses its requester,
its offered channels unbind, its other channels carry its closed flag or have unbound, its return queues are empty, and no
channel of which it is no end, no descriptor outside the channel queues, and no quota is touched (R162 to R166, R39, R127).
The descriptors it frees are freed channel by channel in ascending order and from the head of each queue, each followed by a
re-examination, with one more where an entry of the port was the head of the allocation wait list; the other buffers of
bounced queues come back to their producers, and no other descriptor changes (R29, R31, R53, R54, R166, R167).
On a port that is not ONLINE, and at its release, the port reset input changes its own level alone (R163). -/
def Obligations.ReclaimStartDropsHoldings : Prop :=
  (∀ (s : State) (p : Port) (r : Request) (c : Instr),
    (c = .detach p ∧ s.presents .detach p r) ∨ (c = .portResetAssert p ∧ s.online p = true) →
    ∃ t, exec c s = .next t ∧
      t.hpi p = { Hpi.reset with
        state := .reclaiming 0
        resetIn := (s.hpi p).resetIn || c == .portResetAssert p
        tickLatch := (s.hpi p).tickLatch
        dataOut := (s.hpi p).dataOut } ∧
      t.allocWaits = s.allocWaits.filter (fun e => decide (e.port ≠ p)) ∧
      t.retest = s.retest.map (fun x =>
        if x.requester.map Prod.fst = some p then { x with requester := none } else x) ∧
      (∀ k : ChanIx, (∀ m, (s.chan k).params? = some m → m.producer ≠ p ∧ m.consumer ≠ p) → t.chan k = s.chan k) ∧
      (∀ k m tag timer, s.chan k = .offered m tag timer → m.producer = p ∨ m.consumer = p → t.chan k = .unbound) ∧
      (∀ k a, s.chan k = .active a → a.params.producer = p ∨ a.params.consumer = p →
        t.chan k = .unbound ∨
          ∃ b, t.chan k = .active b ∧ b.params = a.params ∧ b.closedBy p = true ∧
            (a.closedBy p = false → b.takeWaits = []) ∧ (a.params.producer = p → b.returns = [] ∧ b.collectWaits = []) ∧
            (a.params.producer ≠ p → a.closedConsumer = false → b.forward = [])) ∧
      (∀ i : DescIx, (∀ k : ChanIx, i ∉ s.forward k ∧ i ∉ s.returns k) → t.desc i = s.desc i) ∧
      (s.queueLaw → s.blockLaw → s.endsLaw →
        let bounced := fun a : Active => a.params.consumer = p ∧ a.closedConsumer = false
        s.freedAll t (s.freedByReclaim p) ∧
          t.reexamsDue = s.reexamsDue + (s.freedByReclaim p).length +
            (match s.allocWaits with
              | [] => 0
              | e :: _ => if e.port = p then 1 else 0) ∧
          (∀ k a, s.chan k = .active a → bounced a → s.givesBack a = true → s.undelivered t a) ∧
          ∀ i : DescIx, i ∉ s.freedByReclaim p → (∀ k a, s.chan k = .active a → bounced a → i ∉ a.forward) →
            t.desc i = s.desc i) ∧
      t = { s with
        ports := t.ports, descs := t.descs, blocks := t.blocks, freeList := t.freeList, retired := t.retired,
        allocWaits := t.allocWaits, reexamsDue := t.reexamsDue, chans := t.chans, retest := t.retest }) ∧
    (∀ (s : State) (p : Port), s.online p = false →
      exec (.portResetAssert p) s = .next (s.setHpi p { s.hpi p with resetIn := true })) ∧
    ∀ (s : State) (p : Port),
      exec (.portResetRelease p) s = .next (s.setHpi p { s.hpi p with resetIn := false })

/-- What a reclaim start, by DETACH or by the port reset input, writes to every other port and leaves of every channel, taken
channel by channel in ascending order (R164 part 6, R165, R166, R179). For an offer, CHANNEL_UNBOUND to its consumer or
PEER_GONE to its producer. Where the producer of an OPEN or CLOSING channel departs: the CLOSED completions of the waiting
TAKEs if it had not closed its end, then PEER_DETACHED, or CHANNEL_UNBOUND with neither a queued nor a held buffer. Where the
consumer departs that had not closed its end: the bounce, with the completions of the COLLECTs that receive buffers and then
BOUNCED or RETURN_ARRIVAL; and in either case PEER_DETACHED, or the CLOSED completions of the remaining COLLECTs and
CHANNEL_UNBOUND. -/
def Obligations.ReclaimStartTellsTheOtherEnd : Prop :=
  ∀ (s : State) (p : Port) (r : Request) (c : Instr),
    (c = .detach p ∧ s.presents .detach p r) ∨ (c = .portResetAssert p ∧ s.online p = true) → s.queueLaw → s.endsLaw →
    ∃ t, exec c s = .next t ∧ (∀ k : ChanIx, t.chan k = s.chanAfterReclaim p k) ∧
      ∀ q : Port, q ≠ p → (∀ x ∈ s.waitsOf q, s.hasRequest q x.1 x.2) → ((s.waitsOf q).map Prod.fst).Nodup →
        t.hpi q = (List.finRange 16).foldl (s.toldByReclaim p q) (s.hpi q)

/-- One step of the reclaim walk acts on the descriptor it reaches by the table of R168 and moves the walk on: FILLING and
COLLECTED become FREE, and a HELD one is revoked as its hold expiry would, with the full effects on its channel and on the
producer and with no REVOKED notice to the departing port, whose walk state is all that changes of it (R92, R93, R168). The
step at index 127 makes the port OFFLINE; a port that is not RECLAIMING has no walk and the command changes nothing
(assumption 7). -/
def Obligations.ReclaimWalkStep : Prop :=
  ∀ (s : State) (p : Port),
    (∀ i : DescIx, (s.hpi p).state = .reclaiming i →
      let next : PortState := if h : i.val < 127 then .reclaiming ⟨i.val + 1, by omega⟩ else .offline
      ((s.desc i).holder ≠ some p → exec (.reclaimWalkStep p) s = .next (s.setHpi p { s.hpi p with state := next })) ∧
      ((s.desc i).holder = some p → (s.desc i).state ≠ .held → (s.desc i).blockList.Nodup →
        ∃ t, exec (.reclaimWalkStep p) s = .next t ∧ s.becameFree t i ∧
          t = { s.setHpi p { s.hpi p with state := next } with
            descs := t.descs, blocks := t.blocks, freeList := t.freeList, retired := t.retired,
            reexamsDue := t.reexamsDue }) ∧
      ∀ b tr timer n, (s.desc i).life = .held b tr p timer n → ∀ a, s.chan tr.channel = .active a →
        a.params.consumer = p → a.params.producer ≠ p → b.blocks.Nodup →
        (∀ w ∈ a.collectWaits, s.hasRequest a.params.producer w.tag .collect) → (a.collectWaits.map Wait.tag).Nodup →
        ∃ t, exec (.reclaimWalkStep p) s = .next t ∧
          s.leaves t i b tr a ⟨.revoked, none⟩ { s.hpi p with state := next } ∧
          t.hpi p = { s.hpi p with state := next }) ∧
      ((∀ i, (s.hpi p).state ≠ .reclaiming i) → exec (.reclaimWalkStep p) s = .next s)

/-- Device reset returns every block of the part to the values of R16, R38, R58, R85, R113, R122, R159 and R171 and keeps
the levels of the port reset inputs; the release of nRESET starts the memory clear, after which every word holds 0x0000
with a valid code, and at its end the device is READY (R36). A cell with a lasting fault keeps it through both events, and is
so found again (R38). That the clear is one step, that either event changes nothing at the wrong time, and that device reset
leaves the stored words to the clear and makes a port's word of read data 0x0000, are the model's (assumptions 14, 7 and
11). -/
def Obligations.DeviceResetAndMemoryClear : Prop :=
  ∀ s : State,
    (∃ t, exec .deviceReset s = .next t ∧ t.resetIn = true ∧ t.device = .initialising ∧ t.ticks = 0#32 ∧
      (∀ p : Port, t.hpi p = { Hpi.reset with resetIn := (s.hpi p).resetIn } ∧ t.quotas.get p = 128 ∧
        t.charged p = 0 ∧ t.waitingDemand p = 0) ∧
      (∀ i : DescIx, t.desc i = ⟨0#8, .free⟩) ∧ (∀ b : BlockIx, t.block b = ⟨.free, false⟩) ∧
      t.freeList = List.finRange 512 ∧ t.retired = [] ∧ t.allocWaits = [] ∧ t.reexamsDue = 0 ∧
      (∀ k : ChanIx, t.chan k = .unbound) ∧ t.retest = none ∧
      t.mem = s.mem ∧ t.upsets = s.upsets ∧ t.stuckCells = s.stuckCells ∧
      (∀ w : MemIx, t.written w = s.written w ∧ t.wordErrors w = s.wordErrors w)) ∧
    (s.resetIn = true →
      ∃ t, exec .memoryClear s = .next t ∧ t.resetIn = false ∧
        (∀ w : MemIx, t.written w = 0#16 ∧ t.upset w = 0#22 ∧ (s.stuck w = Stuck.none → t.finding w = .noError)) ∧
        t = { s with resetIn := false, mem := t.mem, upsets := t.upsets }) ∧
    (s.resetIn = false → exec .memoryClear s = .next s) ∧
    (s.resetIn = false → exec .deviceReady s = .next { s with device := .ready }) ∧
    (s.resetIn = true → exec .deviceReady s = .next s)

/-- One tick raises the counter by one and lowers every running timer by one, the tick that would take a count from 1 to 0
making it run out; it touches nothing else, and none is produced while nRESET is asserted (R85, R87, R89). -/
def Obligations.TickCountsEveryTimer : Prop :=
  ∀ s : State,
    (s.resetIn = false →
      let later := fun k : Timer =>
        match k with
        | .running n => if 2 ≤ n then Timer.running (n - 1) else .ranOut
        | .ranOut => .ranOut
      ∃ t, exec .tick s = .next t ∧ t.ticks = s.ticks + 1#32 ∧
        t.allocWaits = s.allocWaits.map (fun e => { e with timer := e.timer.map later }) ∧
        (∀ i b tr p k n, (s.desc i).life = .held b tr p k n →
          t.desc i = ⟨(s.desc i).generation, .held b tr p (k.map later) n⟩) ∧
        (∀ i, (s.desc i).state ≠ .held → t.desc i = s.desc i) ∧
        (∀ k m tag x, s.chan k = .offered m tag x → t.chan k = .offered m tag (later x)) ∧
        (∀ k a, s.chan k = .active a →
          t.chan k = .active { a with
            takeWaits := a.takeWaits.map (fun w => ⟨w.tag, w.timer.map later⟩)
            collectWaits := a.collectWaits.map (fun w => ⟨w.tag, w.timer.map later⟩) }) ∧
        (∀ k, s.chan k = .unbound → t.chan k = .unbound) ∧
        t = { s with ticks := t.ticks, allocWaits := t.allocWaits, descs := t.descs, chans := t.chans }) ∧
      (s.resetIn = true → exec .tick s = .next s)

/-! ### The pool -/

/-- ALLOCATE by the checks of R25 and the rows of R26: refused, satisfied at once with the first blocks of the free list and
the lowest FREE descriptor, refused NO_BUFFER, or left waiting at the tail of the list (R13, R19, R27). -/
def Obligations.AllocateSettled : Prop :=
  ∀ (s : State) (p : Port) (r : Request), s.presents .allocate p r →
    let n := r.count.toNat
    let refused := fun code => ∃ t, exec (.allocate p) s = .next t ∧ s.onlyCompletes t p r code {}
    if n < 1 ∨ 16 < n then refused .badRequest
    else if s.quotas.get p < s.charged p + s.waitingDemand p + n then refused .overQuota
    else
      (∀ i : DescIx, s.allocWaits = [] → n ≤ s.freeList.length → s.isLowestFree i →
        ∃ t, exec (.allocate p) s = .next t ∧ s.lentTo t p n i ∧
          t.hpi p = (s.hpi p).afterCompletion r.tag .allocate .done { blockCount := n, v0 := s.handle i } s.stamp ∧
          s.othersKept t p ∧
          t = { s with ports := t.ports, descs := t.descs, blocks := t.blocks, freeList := t.freeList }) ∧
        (s.allocWaits ≠ [] ∨ s.cannotGive n →
          (r.limit = 0#16 → refused .noBuffer) ∧
            (r.limit ≠ 0#16 → exec (.allocate p) s = .next { s.setHpi p ((s.hpi p).leftAs r.tag .waiting) with
              allocWaits := s.allocWaits ++
                [⟨p, r.tag, n, if r.limit.toNat = 65535 then none else some (.running r.limit.toNat)⟩] }))

/-- FREE of a FILLING or COLLECTED buffer by its holder makes it FREE, hands its blocks over and completes with its block
count, changing nothing else (R32, R12, R21). -/
def Obligations.FreeReturnsTheBuffer : Prop :=
  ∀ (s : State) (p : Port) (r : Request), s.presents .free p r → s.handlePasses p r [.filling, .collected] →
    let i : DescIx := handleIx r.handle
    (s.desc i).blockList.Nodup →
    ∃ t, exec (.free p) s = .next t ∧ s.becameFree t i ∧
      t.hpi p = (s.hpi p).afterCompletion r.tag .free .done { blockCount := (s.desc i).blockList.length } s.stamp ∧
      s.othersKept t p ∧
      t = { s with
        ports := t.ports, descs := t.descs, blocks := t.blocks, freeList := t.freeList, retired := t.retired,
        reexamsDue := t.reexamsDue }

/-- GRANT by the checks of R33; one that passes moves the amount from the requester's quota to the peer's, completes with
what is left, and notifies the peer if it is ONLINE, changing nothing else (R33, R34). -/
def Obligations.GrantMovesQuota : Prop :=
  ∀ (s : State) (p : Port) (r : Request), s.presents .grant p r →
    let k := r.count.toNat
    let refused := fun code => ∃ t, exec (.grant p) s = .next t ∧ s.onlyCompletes t p r code {}
    ((r.peer.toNat < 1 ∨ 4 < r.peer.toNat ∨ k < 1 ∨ 512 < k) → refused .badRequest) ∧
    ∀ q : Port, portCode q = r.peer.toNat → 1 ≤ k → k ≤ 512 →
      (q = p → refused .badRequest) ∧
      (q ≠ p → s.quotas.get p < k + (s.charged p + s.waitingDemand p) → refused .overQuota) ∧
      (q ≠ p → k + (s.charged p + s.waitingDemand p) ≤ s.quotas.get p →
        ∃ t, exec (.grant p) s = .next t ∧ t.quotas.get p + k = s.quotas.get p ∧
          t.quotas.get q = s.quotas.get q + k ∧ (∀ x : Port, x ≠ p → x ≠ q → t.quotas.get x = s.quotas.get x) ∧
          t.hpi p = (s.hpi p).afterCompletion r.tag .grant .done { v0 := BitVec.ofNat 16 (t.quotas.get p) } s.stamp ∧
          t.hpi q = (s.hpi q).afterNotice .quotaGranted
            { v0 := BitVec.ofNat 16 (portCode p), v1 := BitVec.ofNat 16 k, v2 := BitVec.ofNat 16 (t.quotas.get q) }
            s.stamp ∧
          (∀ x : Port, x ≠ p → x ≠ q → t.hpi x = s.hpi x) ∧ t = { s with ports := t.ports, quotas := t.quotas })

/-- QUERY_POOL and QUERY_CHANNEL change nothing but their completion, which carries the values of R35 and of R57 in the
places of R178 and zero in every other field (R144); a channel outside 0 to 15 is refused BAD_REQUEST. -/
def Obligations.QueriesReportTheState : Prop :=
  (∀ (s : State) (p : Port) (r : Request), s.presents .queryPool p r →
    ∃ t v, exec (.queryPool p) s = .next t ∧ s.onlyCompletes t p r .done v ∧
      v.v0 = BitVec.ofNat 16 s.freeList.length ∧ v.v1 = BitVec.ofNat 16 s.retired.length ∧
      v.v2 = BitVec.ofNat 16 (s.descs.toList.countP (fun d => d.state == .free)) ∧
      v.v3 = BitVec.ofNat 16 (s.quotas.get p) ∧ (v.v4.extractLsb' 0 10).toNat = s.charged p % 1024 ∧
      (v.v4.extractLsb' 10 5).toNat =
        (match s.allocWaits with
          | [] => 0
          | e :: _ => e.count % 32) ∧
      (v.v4.getLsbD 15 = true ↔ s.retest ≠ none) ∧ v.channel = 0#4 ∧ v.blockCount = 0 ∧ v.damaged = false) ∧
    ∀ (s : State) (p : Port) (r : Request), s.presents .queryChannel p r →
      (16 ≤ r.channel.toNat → ∃ t, exec (.queryChannel p) s = .next t ∧ s.onlyCompletes t p r .badRequest {}) ∧
      ∀ k : ChanIx, r.channel.toNat = k.val →
        ∃ t v, exec (.queryChannel p) s = .next t ∧ s.onlyCompletes t p r .done v ∧
          (v.v0.extractLsb' 0 2).toNat = (match (s.chan k).state with
            | .unbound => 0 | .offered => 1 | .opened => 2 | .closing => 3) ∧
          (v.v0.extractLsb' 2 2).toNat = (s.chan k).params?.elim 0 (fun m => chanKindCode m.kind) ∧
          (v.v0.extractLsb' 4 3).toNat = (s.chan k).params?.elim 0 (fun m => portCode m.producer) ∧
          (v.v0.extractLsb' 7 3).toNat = (s.chan k).params?.elim 0 (fun m => portCode m.consumer) ∧
          (v.v0.extractLsb' 10 6).toNat = (s.chan k).params?.elim 0 (fun m => m.depthLimit % 64) ∧
          v.v1 = BitVec.ofNat 16 ((s.chan k).params?.elim 0 (·.holdLimit)) ∧
          (v.v2.extractLsb' 0 6).toNat = (s.forward k).length % 64 ∧
          (v.v2.extractLsb' 6 6).toNat = s.heldCount k % 64 ∧
          (v.v2.extractLsb' 12 4).toNat = (s.chan k).params?.elim 0 (fun m => m.renewLimit % 16) ∧
          (v.v3.extractLsb' 0 6).toNat = (s.returns k).length % 64 ∧ v.v3.extractLsb' 6 8 = 0#8 ∧
          v.v3.getLsbD 14 = (s.chan k).active?.elim false (·.closedProducer) ∧
          v.v3.getLsbD 15 = (s.chan k).active?.elim false (·.closedConsumer) ∧
          v.v4 = (s.chan k).active?.elim 0#16 (·.nextSequence) ∧ v.channel = 0#4 ∧ v.blockCount = 0 ∧ v.damaged = false

/-- A re-examination that is owed serves the head of the allocation wait list while it can be served, and ends at a head that
cannot be, whatever stands behind it: it is the service of the head followed by the same re-examination of what is left
(R28, R29). Where none is owed the command changes nothing (assumption 7). -/
def Obligations.ReexaminationServesTheHead : Prop :=
  ∀ s : State,
    (s.reexamsDue = 0 → exec .poolReexamination s = .next s) ∧
    (∀ n, s.reexamsDue = n + 1 →
      (s.allocWaits = [] ∨ ∃ e rest, s.allocWaits = e :: rest ∧ s.cannotGive e.count) →
      exec .poolReexamination s = .next { s with reexamsDue := n }) ∧
    ∀ n e rest i, s.reexamsDue = n + 1 → s.allocWaits = e :: rest → e.count ≤ s.freeList.length → s.isLowestFree i →
      s.hasRequest e.port e.tag .allocate →
      ∃ m t : State, exec .poolReexamination s = .next t ∧ exec .poolReexamination m = .next t ∧ m.allocWaits = rest ∧
        s.lentTo m e.port e.count i ∧
        m.hpi e.port = (s.hpi e.port).afterCompletion e.tag .allocate .done
          { blockCount := e.count, v0 := s.handle i } s.stamp ∧
        s.othersKept m e.port ∧
        m = { s with
          ports := m.ports, descs := m.descs, blocks := m.blocks, freeList := m.freeList, allocWaits := rest }

/-- A wait timer that has run out ends its request: the entry leaves its list wherever it stands, the ALLOCATE, TAKE or
COLLECT completes TIMED_OUT, and an allocation wait list that loses its head is to be re-examined; nothing else changes
(R30, R70, R81). An expiry that finds no such timer has no effect. -/
def Obligations.WaitTimersExpire : Prop :=
  (∀ (s : State) (p : Port) (tag : Tag), s.hasRequest p tag .allocate →
    (∃ e ∈ s.allocWaits, e.port = p ∧ e.tag = tag ∧ e.timer = some .ranOut) →
    exec (.allocationWaitExpiry p tag) s = .next
      { s.setHpi p ((s.hpi p).afterCompletion tag .allocate .timedOut {} s.stamp) with
        allocWaits := s.allocWaits.eraseP (fun e => decide (e.port = p ∧ e.tag = tag))
        reexamsDue := s.reexamsDue +
          (match s.allocWaits with
            | [] => 0
            | x :: _ => if x.port = p ∧ x.tag = tag then 1 else 0) }) ∧
    (∀ (s : State) (p : Port) (tag : Tag),
      (∀ e ∈ s.allocWaits, ¬(e.port = p ∧ e.tag = tag ∧ e.timer = some .ranOut)) →
      exec (.allocationWaitExpiry p tag) s = .next s) ∧
    (∀ (s : State) (k : ChanIx) (a : Active) (tag : Tag), s.chan k = .active a →
      let out := fun w : Wait => decide (w = ⟨tag, some .ranOut⟩)
      let v : Vals := { channel := BitVec.ofNat 4 k.val }
      ((∃ w ∈ a.takeWaits, out w = true) → s.hasRequest a.params.consumer tag .take →
        exec (.takeWaitExpiry k tag) s = .next ((s.setHpi a.params.consumer
          ((s.hpi a.params.consumer).afterCompletion tag .take .timedOut v s.stamp)).setChan k
            (.active { a with takeWaits := a.takeWaits.eraseP out }))) ∧
      ((∃ w ∈ a.collectWaits, out w = true) → s.hasRequest a.params.producer tag .collect →
        exec (.collectWaitExpiry k tag) s = .next ((s.setHpi a.params.producer
          ((s.hpi a.params.producer).afterCompletion tag .collect .timedOut v s.stamp)).setChan k
            (.active { a with collectWaits := a.collectWaits.eraseP out }))) ∧
      ((∀ w ∈ a.takeWaits, out w = false) → exec (.takeWaitExpiry k tag) s = .next s) ∧
      ((∀ w ∈ a.collectWaits, out w = false) → exec (.collectWaitExpiry k tag) s = .next s)) ∧
    ∀ (s : State) (k : ChanIx) (tag : Tag), (s.chan k).active? = none →
      exec (.takeWaitExpiry k tag) s = .next s ∧ exec (.collectWaitExpiry k tag) s = .next s

/-! ### RETEST and stored bits -/

/-- RETEST: BUSY while the record is running, DONE at once with zeros on an empty retired list, and otherwise the record is
running with the whole list to test, its head under test, and the request stays outstanding (R123). The last field, the list
of upsets of the test, is the model's own (assumption 8). -/
def Obligations.RetestStarts : Prop :=
  ∀ (s : State) (p : Port) (r : Request), s.presents .retest p r →
    (s.retest ≠ none → ∃ t, exec (.retest p) s = .next t ∧ s.onlyCompletes t p r .busy {}) ∧
    (s.retest = none → s.retired = [] → ∃ t, exec (.retest p) s = .next t ∧ s.onlyCompletes t p r .done {}) ∧
    ∀ b rest, s.retest = none → s.retired = b :: rest →
      exec (.retest p) s = .next { s.setHpi p ((s.hpi p).leftAs r.tag .running) with
        retest := some ⟨some (p, r.tag), s.retired.length, s.retired.length, 0, b, []⟩ }

/-- The end of a block test: the block holds zeros with a valid code, but for bits upset after the closing write of their
word; it goes to the tail of the free list after a pass with a re-examination owed and to the tail of the retired list after
a failure; the next test begins with the head of the retired list, or the operation ends and the RETEST of a requester
still there completes (R22, R124 to R126). The test passes when all 384 read-backs do: a block without faults or upsets
passes; one with a data bit stuck since before the test fails (that a fault is a stuck cell is assumption 16), whatever
upsets fall within the test; one upset bit fails it exactly where it falls between a pattern's write and read-back. Where in
the test an upset falls is the model's free choice (assumption 8), as the number of the test's operations done, operation j
of word v being number 128 j + v (R124). With no test in progress the command changes nothing (assumption 7). -/
def Obligations.BlockTestEnds : Prop :=
  (∀ s : State, s.retest = none → exec .blockTestEnd s = .next s) ∧
    (∀ (s : State) (x : Retest), s.retest = some x → s.retestLaw → s.memoryWf →
      (∀ p tag, x.requester = some (p, tag) → s.hasRequest p tag .retest) →
      let pass := s.blockTestPasses x.block x.disturbed
      ∃ t : State, exec .blockTestEnd s = .next t ∧
        (pass = true → t.block x.block = ⟨.free, false⟩ ∧ t.freeList = s.freeList ++ [x.block] ∧
          t.retired = s.retired.tail ∧ t.reexamsDue = s.reexamsDue + 1) ∧
        (pass = false → t.block x.block = s.block x.block ∧ t.freeList = s.freeList ∧
          t.retired = s.retired.tail ++ [x.block] ∧ t.reexamsDue = s.reexamsDue) ∧
        (∀ b : BlockIx, b ≠ x.block → t.block b = s.block b) ∧
        (∀ w : MemIx, if w.val / 128 = x.block.val then t.written w = 0#16 ∧ t.upset w = flipsAfter x.disturbed w 7
          else t.written w = s.written w ∧ t.upset w = s.upset w) ∧
        (1 < x.remaining → t.ports = s.ports ∧
          ∃ b, t.retired.head? = some b ∧
            t.retest = some ⟨x.requester, x.tested, x.remaining - 1, x.passed + (if pass then 1 else 0), b, []⟩) ∧
        (x.remaining = 1 → t.retest = none ∧ (x.requester = none → t.ports = s.ports) ∧
          ∀ p tag, x.requester = some (p, tag) → s.othersKept t p ∧
            t.hpi p = (s.hpi p).afterCompletion tag .retest .done
              { v0 := BitVec.ofNat 16 x.tested
                v1 := BitVec.ofNat 16 (x.passed + (if pass then 1 else 0))
                v2 := BitVec.ofNat 16 t.retired.length } s.stamp) ∧
        t = { s with
          ports := t.ports, blocks := t.blocks, freeList := t.freeList, retired := t.retired,
          reexamsDue := t.reexamsDue, mem := t.mem, upsets := t.upsets, retest := t.retest }) ∧
    (∀ (s : State) (b : BlockIx), (∀ w : MemIx, w.val / 128 = b.val → s.stuck w = Stuck.none) →
      s.blockTestPasses b [] = true ∧
        ∀ d : Disturbance, d.word.val / 128 = b.val → d.cells = 0#22 → bitCount d.flips = 1 →
          (s.blockTestPasses b [d] = false ↔ d.opsDone = 1 ∨ d.opsDone = 3 ∨ d.opsDone = 5)) ∧
    (∀ (s : State) (b : BlockIx) (w : MemIx) (j : Nat) (ds : List Disturbance), j < 16 → w.val / 128 = b.val →
      (s.stuck w).cells.getLsbD j = true → (∀ d ∈ ds, d.word = w → d.cells.getLsbD j = false) →
      s.blockTestPasses b ds = false) ∧
    ∀ v m j : Nat, v < 128 → j < 7 → (j < opsDone v m ↔ 128 * j + v < m)

/-- An upset of one of the 22 stored bits of a sound word is found as a corrected error with the data as written, and an
upset of two as an uncorrectable error with the data bits as they stand (R114). Of any word an upset changes the bits it
names, and a cell that fails keeps the bit it is stuck at, one that had failed before the bit it was stuck at; the order of
the 22 bits, and that a fault is a stuck cell, are the model's (assumption 16). The stored data, every other word and all
else are as they were, but that an upset of the block under test is noted, with the cells that newly failed, at a free
moment of the test after the upset before it (assumption 8). -/
def Obligations.UpsetsAreFound : Prop :=
  (∀ (s : State) (w : MemIx) (flips level : StoredBits), s.memoryWf → s.stuck w = Stuck.none → s.upset w = 0#22 →
    (∃ t, exec (.storedBitUpset w flips 0#22 level) s = .next t ∧
      (bitCount flips = 1 → t.finding w = .corrected (s.written w)) ∧
      (bitCount flips = 2 → t.finding w = .uncorrectable ∧ t.readData w = s.written w ^^^ flips.setWidth 16)) ∧
    ∀ j : Nat, j < 16 →
      ∃ t, exec (.storedBitUpset w 0#22 (BitVec.twoPow 22 j) level) s = .next t ∧
        t.wordErrors w =
          (if (s.written w).getLsbD j = level.getLsbD j then 0#22 else BitVec.twoPow 22 j)) ∧
    ∀ (s : State) (w : MemIx) (flips cells level : StoredBits), s.memoryWf →
      ∃ t, exec (.storedBitUpset w flips cells level) s = .next t ∧
        t.upset w = s.upset w ^^^ flips ∧
        (∀ j : Nat, j < 22 →
          (t.stuck w).cells.getLsbD j = ((s.stuck w).cells.getLsbD j || cells.getLsbD j) ∧
            ((t.stuck w).cells.getLsbD j = true → (t.stuck w).level.getLsbD j =
              if (s.stuck w).cells.getLsbD j then (s.stuck w).level.getLsbD j else level.getLsbD j)) ∧
        (∀ v : MemIx, t.written v = s.written v) ∧
        (∀ v : MemIx, v ≠ w → t.upset v = s.upset v ∧ t.stuck v = s.stuck v) ∧
        ((∀ x : Retest, s.retest = some x → w.val / 128 ≠ x.block.val) →
          t = { s with upsets := t.upsets, stuckCells := t.stuckCells }) ∧
        ∀ x : Retest, s.retest = some x → w.val / 128 = x.block.val → s.retestLaw →
          ∃ m : Nat, x.lastMoment ≤ m ∧ m ≤ 896 ∧
            t = { s with
              upsets := t.upsets
              stuckCells := t.stuckCells
              freeDraws := s.freeDraws + 1
              retest := some { x with
                disturbed := x.disturbed ++ [⟨w, flips, cells &&& ~~~(s.stuck w).cells, m⟩] } }

/-! ### Binding and closing channels -/

/-- OFFER by the checks of R43, each refusal carrying the channel; one that passes makes the channel OFFERED with its timer
running, notifies the consumer and is left WAITING (R43, R44). What the four-bit channel field of the completion shows for a
channel outside 0 to 15 is the model's choice, a free value (assumption 5). -/
def Obligations.OfferBindsTheChannel : Prop :=
  ∀ (s : State) (p : Port) (r : Request), s.presents .offer p r →
    let bad := 4 < r.peer.toNat ∨ r.peer.toNat < 1 ∨ r.chanKind.toNat < 1 ∨ 2 < r.chanKind.toNat ∨ r.count.toNat < 1 ∨
      32 < r.count.toNat ∨ 15 < r.slot.toNat ∨ r.limit = 0#16
    (16 ≤ r.channel.toNat →
      ∃ t x, exec (.offer p) s = .next t ∧
        t = { s.setHpi p ((s.hpi p).afterCompletion r.tag .offer .badRequest { channel := x } s.stamp) with
          freeDraws := s.freeDraws + 1 }) ∧
    ∀ k : ChanIx, r.channel.toNat = k.val →
      let v : Vals := { channel := BitVec.ofNat 4 k.val }
      let refused := fun code => ∃ t, exec (.offer p) s = .next t ∧ s.onlyCompletes t p r code v
      (bad → refused .badRequest) ∧
      ∀ (q : Port) (kind : ChanKind), ¬bad → portCode q = r.peer.toNat → chanKindCode kind = r.chanKind.toNat →
        if q = p then refused .badRequest
        else if s.chan k ≠ .unbound then refused .channelBusy
        else if (s.hpi q).state ≠ .online then refused .peerOffline
        else
          let m : ChanParams := ⟨kind, p, q, r.count.toNat, r.length.toNat, r.slot.toNat⟩
          exec (.offer p) s = .next (((s.setHpi p ((s.hpi p).leftAs r.tag .waiting)).setHpi q
            ((s.hpi q).afterNotice .offerArrived
              { v with v0 := offerWord m, v1 := r.length, v2 := r.limit } s.stamp)).setChan k
                (.offered m r.tag (.running r.limit.toNat)))

/-- ACCEPT: BAD_REQUEST for a channel outside 0 to 15, NO_OFFER unless the channel is OFFERED to the requester, and otherwise
the channel opens with everything clear and empty, the waiting OFFER completes DONE, and so does the ACCEPT (R46). -/
def Obligations.AcceptOpensTheChannel : Prop :=
  ∀ (s : State) (p : Port) (r : Request), s.presents .accept p r →
    (16 ≤ r.channel.toNat → ∃ t, exec (.accept p) s = .next t ∧ s.onlyCompletes t p r .badRequest {}) ∧
    ∀ k : ChanIx, r.channel.toNat = k.val →
      ((∀ m tag timer, s.chan k = .offered m tag timer → m.consumer ≠ p) →
        ∃ t, exec (.accept p) s = .next t ∧ s.onlyCompletes t p r .noOffer {}) ∧
      ∀ m tag timer, s.chan k = .offered m tag timer → m.consumer = p → m.producer ≠ p →
        s.hasRequest m.producer tag .offer →
        let v : Vals := { channel := BitVec.ofNat 4 k.val }
        exec (.accept p) s = .next (((s.setHpi p ((s.hpi p).afterCompletion r.tag .accept .done
          { v with v0 := offerWord m, v1 := BitVec.ofNat 16 m.holdLimit } s.stamp)).setHpi m.producer
            ((s.hpi m.producer).afterCompletion tag .offer .done
              { v with v0 := BitVec.ofNat 16 (portCode p) } s.stamp)).setChan k
          (.active ⟨m, false, false, 0#16, [], [], [], []⟩))

/-- REJECT, WITHDRAW and offer expiry end the offer: the channel is UNBOUND, the waiting OFFER completes REJECTED, WITHDRAWN
ahead of the WITHDRAW, or EXPIRED, and the consumer receives CHANNEL_UNBOUND from a withdrawal or an expiry. Without an
offer that the requester may end they are refused NO_OFFER, and an expiry that finds the channel no longer OFFERED has no
effect (R47, R48, R49). -/
def Obligations.OffersEnd : Prop :=
  (∀ (s : State) (p : Port) (r : Request) (kind : ReqKind), (kind = .reject ∨ kind = .withdraw) → s.presents kind p r →
    (16 ≤ r.channel.toNat → ∃ t, exec (presentation kind p) s = .next t ∧ s.onlyCompletes t p r .badRequest {}) ∧
    ∀ k : ChanIx, r.channel.toNat = k.val →
      let v : Vals := { channel := BitVec.ofNat 4 k.val }
      ((∀ m tag timer, s.chan k = .offered m tag timer →
          (if kind = .reject then m.consumer else m.producer) ≠ p) →
        ∃ t, exec (presentation kind p) s = .next t ∧ s.onlyCompletes t p r .noOffer {}) ∧
      ∀ m tag timer, s.chan k = .offered m tag timer → m.producer ≠ m.consumer → s.hasRequest m.producer tag .offer →
        let o : Vals := { v with v0 := BitVec.ofNat 16 (portCode m.consumer) }
        (kind = .reject → m.consumer = p →
          exec (.reject p) s = .next (((s.setHpi p ((s.hpi p).afterCompletion r.tag .reject .done v s.stamp)).setHpi
            m.producer ((s.hpi m.producer).afterCompletion tag .offer .rejected o s.stamp)).setChan k .unbound)) ∧
        (kind = .withdraw → m.producer = p →
          exec (.withdraw p) s = .next (((s.setHpi p (((s.hpi p).afterCompletion tag .offer .withdrawn o
            s.stamp).afterCompletion r.tag .withdraw .done v s.stamp)).setHpi m.consumer
              ((s.hpi m.consumer).afterNotice .channelUnbound v s.stamp)).setChan k .unbound))) ∧
    ∀ (s : State) (k : ChanIx),
      ((s.chan k).state ≠ .offered → exec (.offerExpiry k) s = .next s) ∧
      ∀ m tag, s.chan k = .offered m tag .ranOut → m.producer ≠ m.consumer → s.hasRequest m.producer tag .offer →
        let v : Vals := { channel := BitVec.ofNat 4 k.val }
        exec (.offerExpiry k) s = .next (((s.setHpi m.producer ((s.hpi m.producer).afterCompletion tag .offer .expired
          { v with v0 := BitVec.ofNat 16 (portCode m.consumer) } s.stamp)).setHpi m.consumer
            ((s.hpi m.consumer).afterNotice .channelUnbound v s.stamp)).setChan k .unbound)

/-- CLOSE by the checks of R51, and by the producer of an open end: its flag is set, the consumer's waiting TAKEs complete
CLOSED, the CLOSE completes DONE with no bounce, and either the other end receives CHANNEL_CLOSING or, with nothing in
transit, the channel unbinds with the producer's waiting COLLECTs CLOSED and CHANNEL_UNBOUND to both (R51, R52, R56,
R179). -/
def Obligations.CloseByTheProducer : Prop :=
  ∀ (s : State) (p : Port) (r : Request), s.presents .close p r →
    let refused := fun code => ∃ t, exec (.close p) s = .next t ∧ s.onlyCompletes t p r code {}
    (16 ≤ r.channel.toNat → refused .badRequest) ∧
    ∀ k : ChanIx, r.channel.toNat = k.val →
      let v : Vals := { channel := BitVec.ofNat 4 k.val }
      ((∀ m, (s.chan k).params? = some m → m.producer ≠ p ∧ m.consumer ≠ p) → refused .notEndpoint) ∧
      (∀ m tag timer, s.chan k = .offered m tag timer → m.producer = p ∨ m.consumer = p → refused .noChannel) ∧
      (∀ a, s.chan k = .active a → a.params.producer = p ∨ a.params.consumer = p → a.closedBy p = true →
        ∃ t, exec (.close p) s = .next t ∧ s.onlyCompletes t p r .done v) ∧
      ∀ a, s.chan k = .active a → a.params.producer = p → a.params.consumer ≠ p → a.closedProducer = false →
        (∀ w ∈ a.takeWaits, s.hasRequest a.params.consumer w.tag .take) → (a.takeWaits.map Wait.tag).Nodup →
        (∀ w ∈ a.collectWaits, s.hasRequest p w.tag .collect) → (a.collectWaits.map Wait.tag).Nodup →
        let q := a.params.consumer
        let told := (s.hpi q).afterAll a.takeWaits .take .closed v s.stamp
        (0 < s.inTransit k →
          exec (.close p) s = .next (((s.setHpi p ((s.hpi p).afterCompletion r.tag .close .done v s.stamp)).setHpi q
            (told.afterNotice .channelClosing { v with v0 := BitVec.ofNat 16 (portCode p) } s.stamp)).setChan k
              (.active { a with closedProducer := true, takeWaits := [] }))) ∧
        (s.inTransit k = 0 →
          exec (.close p) s = .next (((s.setHpi p
            ((((s.hpi p).afterCompletion r.tag .close .done { v with v1 := 1#16 } s.stamp).afterAll a.collectWaits .collect
              .closed v s.stamp).afterNotice .channelUnbound v s.stamp)).setHpi q
                (told.afterNotice .channelUnbound v s.stamp)).setChan k .unbound))

/-- CLOSE by the consumer of an open end: its waiting TAKEs complete CLOSED and the forward queue is bounced. On ONE_WAY, and
on ROUND_TRIP with the producer gone, every bounced buffer becomes FREE, its blocks joining the lists in queue order, and on
ONE_WAY an ONLINE producer receives BOUNCED; on ROUND_TRIP with an ONLINE producer the buffers go UNDELIVERED to its waiting
COLLECTs, and those left over to the return queue with RETURN_ARRIVAL if that was empty. The CLOSE completes DONE with the
number bounced. With a buffer still in transit CHANNEL_CLOSING follows; otherwise the CLOSE carries the unbound indication,
the remaining waiting COLLECTs complete CLOSED and both ends receive CHANNEL_UNBOUND (R51, R53, R54, R56, R179). -/
def Obligations.CloseByTheConsumer : Prop :=
  ∀ (s : State) (p : Port) (r : Request) (k : ChanIx) (a : Active), s.presents .close p r → r.channel.toNat = k.val →
    s.chan k = .active a → a.params.consumer = p → a.params.producer ≠ p → a.closedConsumer = false →
    (∀ w ∈ a.takeWaits, s.hasRequest p w.tag .take) → (a.takeWaits.map Wait.tag).Nodup →
    (∀ w ∈ a.takeWaits, w.tag ≠ r.tag) →
    (∀ w ∈ a.collectWaits, s.hasRequest a.params.producer w.tag .collect) → (a.collectWaits.map Wait.tag).Nodup →
    s.queueLaw → s.blockLaw →
    let q := a.params.producer
    let v : Vals := { channel := BitVec.ofNat 4 k.val }
    let b := a.afterBounce (s.givesBack a)
    let unbinds := decide (s.heldCount k + b.returns.length = 0)
    let own := ((s.hpi p).afterAll a.takeWaits .take .closed v s.stamp).afterCompletion r.tag .close .done
      { v with v0 := BitVec.ofNat 16 a.forward.length, v1 := if unbinds then 1#16 else 0#16 } s.stamp
    ∃ t, exec (.close p) s = .next t ∧
      t.hpi p = (if unbinds then own.afterNotice .channelUnbound v s.stamp else own) ∧
      t.hpi q = (s.toldOfBounce k a (s.hpi q)).afterClose k unbinds b.collectWaits .channelClosing p s.stamp ∧
      (∀ x : Port, x ≠ p → x ≠ q → t.hpi x = s.hpi x) ∧
      t.chan k = (if unbinds then .unbound else .active b) ∧ s.otherChans t k ∧ s.bounces t a ∧
      t.reexamsDue = s.reexamsDue + (if s.givesBack a then 0 else a.forward.length) ∧
      t = { s with
        ports := t.ports, chans := t.chans, descs := t.descs, blocks := t.blocks, freeList := t.freeList,
        retired := t.retired, reexamsDue := t.reexamsDue }

/-! ### Traffic -/

/-- The checks of POST in the order of R60, with the values of R61; a refused POST changes nothing but its completion, which
carries the channel and a sequence of 0 (a request taken goes on to `PostMovesTheBuffer`). What the four-bit channel field
of the completion shows for a channel outside 0 to 15 is the model's choice, a free value (assumption 5). -/
def Obligations.PostChecksInOrder : Prop :=
  ∀ (s : State) (p : Port) (r : Request), s.presents .post p r →
    (16 ≤ r.channel.toNat →
      ∃ x, exec (.post p) s = .next
        { s.setHpi p ((s.hpi p).afterCompletion r.tag .post .badRequest { channel := x } s.stamp) with
          freeDraws := s.freeDraws + 1 }) ∧
    ∀ k : ChanIx, r.channel.toNat = k.val →
      let d := s.desc (handleIx r.handle)
      let extent := 256 * d.blockList.length
      let refused := fun code =>
        ∃ t, exec (.post p) s = .next t ∧ s.onlyCompletes t p r code { channel := BitVec.ofNat 4 k.val }
      let accepted := ∃ t, exec (.post p) s = .next t ∧ (t.desc (handleIx r.handle)).traffic ≠ none
      if r.handle.getLsbD 7 = true then refused .badRequest
      else if s.stale r.handle = true then refused .staleHandle
      else if d.holder ≠ some p then refused .notHolder
      else if d.state ≠ .filling then refused .wrongState
      else
        match (s.chan k).params? with
        | none => refused .notEndpoint
        | some m =>
          if m.producer ≠ p then refused .notEndpoint
          else if (s.chan k).state ≠ .opened then refused .noChannel
          else if m.depthLimit ≤ s.inTransit k then refused .full
          else if extent < r.length.toNat then refused .range
          else if r.replyOpen = 0#16 ∧ r.replyClose = 0#16 then accepted
          else if m.kind = .roundTrip ∧ r.replyOpen.toNat % 2 = 0 ∧ r.replyClose.toNat % 2 = 0 ∧
              r.replyOpen.toNat < r.replyClose.toNat ∧ r.replyClose.toNat ≤ extent
            then accepted
          else refused .range

/-- A POST that passes its checks gives the descriptor length, channel, sequence and reply range and advances the sequence.
With a TAKE waiting, the descriptor is HELD by the consumer with its hold fields set and the oldest TAKE completes DONE with
its values; otherwise it joins the tail of the forward queue, with ARRIVAL if that was empty. The POST completes with
channel, sequence and whether it was delivered (R6, R8, R63, R64). -/
def Obligations.PostMovesTheBuffer : Prop :=
  ∀ (s : State) (p : Port) (r : Request) (k : ChanIx) (a : Active) (b : Buf), s.presents .post p r →
    s.handlePasses p r [.filling] → r.channel.toNat = k.val → s.chan k = .active a → a.params.producer = p →
    a.params.consumer ≠ p → (s.chan k).state = .opened → s.inTransit k < a.params.depthLimit →
    (s.desc (handleIx r.handle)).life = .filling b → r.length.toNat ≤ 256 * b.blocks.length →
    ((r.replyOpen = 0#16 ∧ r.replyClose = 0#16) ∨ (a.params.kind = .roundTrip ∧ r.replyOpen.toNat % 2 = 0 ∧
      r.replyClose.toNat % 2 = 0 ∧ r.replyOpen.toNat < r.replyClose.toNat ∧
      r.replyClose.toNat ≤ 256 * b.blocks.length)) →
    let i : DescIx := handleIx r.handle
    let q := a.params.consumer
    let tr : Traffic := ⟨r.length.toNat, k, a.nextSequence,
      if r.replyOpen = 0#16 ∧ r.replyClose = 0#16 then none else some (r.replyOpen.toNat, r.replyClose.toNat)⟩
    let v : Vals := { channel := BitVec.ofNat 4 k.val, v0 := a.nextSequence }
    (a.takeWaits = [] →
      exec (.post p) s = .next ((((s.setHpi p ((s.hpi p).afterCompletion r.tag .post .done v s.stamp)).setHpi q
        (if a.forward = [] then (s.hpi q).afterNotice .arrival v s.stamp else s.hpi q)).setChan k
          (.active { a with nextSequence := a.nextSequence + 1#16, forward := a.forward ++ [i] })).setDesc i
            ⟨(s.desc i).generation, .queued b tr⟩)) ∧
    ∀ w ws, a.takeWaits = w :: ws → s.hasRequest q w.tag .take →
      exec (.post p) s = .next ((((s.setHpi p ((s.hpi p).afterCompletion r.tag .post .done { v with v1 := 1#16 }
        s.stamp)).setHpi q ((s.hpi q).afterCompletion w.tag .take .done (s.takeVals i b tr p) s.stamp)).setChan k
          (.active { a with nextSequence := a.nextSequence + 1#16, takeWaits := ws })).setDesc i
            ⟨(s.desc i).generation, .held b tr q
              (if a.params.holdLimit = 0 then none else some (.running a.params.holdLimit)) 0⟩)

/-- TAKE by the checks of R66, each refusal carrying the channel; one that passes takes the head of the forward queue into
HELD with its hold fields set and completes with the values of R67, or finds the queue empty and is settled by the rows of
R68, changing nothing else. What the channel field shows for a channel outside 0 to 15 is the model's choice, a free value
(assumption 5). -/
def Obligations.TakeSettled : Prop :=
  ∀ (s : State) (p : Port) (r : Request), s.presents .take p r →
    (16 ≤ r.channel.toNat →
      ∃ x, exec (.take p) s = .next
        { s.setHpi p ((s.hpi p).afterCompletion r.tag .take .badRequest { channel := x } s.stamp) with
          freeDraws := s.freeDraws + 1 }) ∧
    ∀ k : ChanIx, r.channel.toNat = k.val →
      let v : Vals := { channel := BitVec.ofNat 4 k.val }
      let ends := fun code => ∃ t, exec (.take p) s = .next t ∧ s.onlyCompletes t p r code v
      ((∀ m, (s.chan k).params? = some m → m.consumer ≠ p) → ends .notEndpoint) ∧
      (∀ m tag timer, s.chan k = .offered m tag timer → m.consumer = p → ends .noChannel) ∧
      ∀ a, s.chan k = .active a → a.params.consumer = p →
        (a.closedConsumer = true → ends .noChannel) ∧
        (a.closedConsumer = false → a.forward = [] →
          (a.closedProducer = true → ends .closed) ∧
          (a.closedProducer = false → r.limit = 0#16 → ends .empty) ∧
          (a.closedProducer = false → r.limit ≠ 0#16 →
            exec (.take p) s = .next ((s.setHpi p ((s.hpi p).leftAs r.tag .waiting)).setChan k
              (.active { a with takeWaits := a.takeWaits ++
                [⟨r.tag, if r.limit.toNat = 65535 then none else some (.running r.limit.toNat)⟩] })))) ∧
        ∀ i rest b tr, a.closedConsumer = false → a.forward = i :: rest → (s.desc i).life = .queued b tr →
          exec (.take p) s = .next (((s.setHpi p ((s.hpi p).afterCompletion r.tag .take .done
            (s.takeVals i b tr a.params.producer) s.stamp)).setChan k (.active { a with forward := rest })).setDesc i
              ⟨(s.desc i).generation, .held b tr p
                (if a.params.holdLimit = 0 then none else some (.running a.params.holdLimit)) 0⟩)

/-- COLLECT by the checks of R78, each refusal carrying the channel; one that passes takes the head of the return queue into
COLLECTED and completes with the values of R79, after which a CLOSING channel with nothing else in transit unbinds, or it
finds the queue empty and is settled by its wait limit (R80), changing nothing else. What the channel field shows for a
channel outside 0 to 15 is the model's choice, a free value (assumption 5). -/
def Obligations.CollectSettled : Prop :=
  ∀ (s : State) (p : Port) (r : Request), s.presents .collect p r →
    (16 ≤ r.channel.toNat →
      ∃ x, exec (.collect p) s = .next
        { s.setHpi p ((s.hpi p).afterCompletion r.tag .collect .badRequest { channel := x } s.stamp) with
          freeDraws := s.freeDraws + 1 }) ∧
    ∀ k : ChanIx, r.channel.toNat = k.val →
      let v : Vals := { channel := BitVec.ofNat 4 k.val }
      let ends := fun code => ∃ t, exec (.collect p) s = .next t ∧ s.onlyCompletes t p r code v
      ((∀ m, (s.chan k).params? = some m → m.producer ≠ p) → ends .notEndpoint) ∧
      (∀ m tag timer, s.chan k = .offered m tag timer → m.producer = p → ends .noChannel) ∧
      ∀ a, s.chan k = .active a → a.params.producer = p →
        (a.params.kind = .oneWay → ends .wrongKind) ∧
        (a.params.kind = .roundTrip → a.returns = [] →
          (r.limit = 0#16 → ends .empty) ∧
          (r.limit ≠ 0#16 →
            exec (.collect p) s = .next ((s.setHpi p ((s.hpi p).leftAs r.tag .waiting)).setChan k
              (.active { a with collectWaits := a.collectWaits ++
                [⟨r.tag, if r.limit.toNat = 65535 then none else some (.running r.limit.toNat)⟩] })))) ∧
        ∀ i rest b tr c, a.params.kind = .roundTrip → a.returns = i :: rest → (s.desc i).life = .returning b tr c →
          let done := (s.hpi p).afterCompletion r.tag .collect .done (s.collectVals i b tr c) s.stamp
          let collected : Desc := ⟨(s.desc i).generation, .collected b tr c⟩
          (s.goesOn k →
            exec (.collect p) s = .next (((s.setHpi p done).setChan k (.active { a with returns := rest })).setDesc i
              collected)) ∧
          ((s.chan k).state = .closing → s.inTransit k = 1 → a.collectWaits = [] → a.params.consumer ≠ p →
            exec (.collect p) s = .next ((((s.setHpi p (done.afterNotice .channelUnbound v s.stamp)).setHpi
              a.params.consumer ((s.hpi a.params.consumer).afterNotice .channelUnbound v s.stamp)).setChan k
                .unbound).setDesc i collected))

/-- RELEASE of a HELD buffer: refused WRONG_KIND on a ROUND_TRIP channel; on a ONE_WAY channel the buffer becomes FREE and
the RELEASE completes with channel and sequence, after which a CLOSING channel with nothing else in transit unbinds; the
producer is told nothing but that (R71). -/
def Obligations.ReleaseFreesTheBuffer : Prop :=
  ∀ (s : State) (p : Port) (r : Request) (b : Buf) (tr : Traffic) (timer : Option Timer) (n : Nat) (a : Active),
    s.presents .release p r → handleBad r.handle = false → s.stale r.handle = false →
    (s.desc (handleIx r.handle)).life = .held b tr p timer n → s.chan tr.channel = .active a →
    let i : DescIx := handleIx r.handle
    let k := tr.channel
    let v : Vals := { channel := BitVec.ofNat 4 k.val }
    let done := (s.hpi p).afterCompletion r.tag .release .done { v with v0 := tr.sequence } s.stamp
    (a.params.kind = .roundTrip →
      ∃ t, exec (.release p) s = .next t ∧ s.onlyCompletes t p r .wrongKind {}) ∧
    (a.params.kind = .oneWay → b.blocks.Nodup → s.goesOn k →
      ∃ t, exec (.release p) s = .next t ∧ s.becameFree t i ∧
        t = { s.setHpi p done with
          descs := t.descs, blocks := t.blocks, freeList := t.freeList, retired := t.retired,
          reexamsDue := t.reexamsDue }) ∧
    (a.params.kind = .oneWay → b.blocks.Nodup → (s.chan k).state = .closing → s.inTransit k = 1 → a.collectWaits = [] →
      a.params.consumer = p → a.params.producer ≠ p →
      ∃ t, exec (.release p) s = .next t ∧ s.becameFree t i ∧
        t = { ((s.setHpi p (done.afterNotice .channelUnbound v s.stamp)).setHpi a.params.producer
              ((s.hpi a.params.producer).afterNotice .channelUnbound v s.stamp)).setChan k .unbound with
          descs := t.descs, blocks := t.blocks, freeList := t.freeList, retired := t.retired,
          reexamsDue := t.reexamsDue })

/-- RETURN of a HELD buffer: refused WRONG_KIND on a ONE_WAY channel and RANGE for a reply longer than the reply range. To an
ONLINE producer the buffer, REPLIED with its reply length, goes to the oldest waiting COLLECT or to the tail of the return
queue with RETURN_ARRIVAL if that was empty; to a producer that is gone it is freed. The RETURN completes with channel,
sequence and the freed indication, ahead of the CHANNEL_UNBOUND of a CLOSING channel whose last buffer it takes out of
transit, which also ends the other waiting COLLECTs CLOSED (R73 to R77, R56). -/
def Obligations.ReturnGivesTheBufferBack : Prop :=
  ∀ (s : State) (p : Port) (r : Request) (b : Buf) (tr : Traffic) (timer : Option Timer) (n : Nat) (a : Active),
    s.presents .returnBuffer p r → handleBad r.handle = false → s.stale r.handle = false →
    (s.desc (handleIx r.handle)).life = .held b tr p timer n → s.chan tr.channel = .active a →
    let i : DescIx := handleIx r.handle
    let room := match tr.reply with
      | none => 0
      | some (o, c) => c - o
    let refused := fun code => ∃ t, exec (.returnBuffer p) s = .next t ∧ s.onlyCompletes t p r code {}
    let v : Vals := { channel := BitVec.ofNat 4 tr.channel.val, v0 := tr.sequence }
    (a.params.kind = .oneWay → refused .wrongKind) ∧
    (a.params.kind = .roundTrip → room < r.length.toNat → refused .range) ∧
    (a.params.kind = .roundTrip → r.length.toNat ≤ room → a.params.consumer = p → a.params.producer ≠ p →
      b.blocks.Nodup → (∀ w ∈ a.collectWaits, s.hasRequest a.params.producer w.tag .collect) →
      (a.collectWaits.map Wait.tag).Nodup →
      ∃ t, exec (.returnBuffer p) s = .next t ∧
        s.leaves t i b tr a ⟨.replied, some r.length.toNat⟩ ((s.hpi p).afterCompletion r.tag .returnBuffer .done
          { v with v1 := if s.online a.params.producer then 0#16 else 1#16 } s.stamp))

/-- RENEW of a HELD buffer by the rows of R91: DONE with nothing changed without a hold limit, the timer restarted with the
full limit and a renewal counted below the renew limit, and RENEW_LIMIT with nothing changed at it, also between the hold
timer's running out and its expiry (R95); each completion carries the handle, the time remaining and the renewals used, and
one refused by the checks of R15 the handle with zeros. The time remaining in that completion between the running out and
the expiry is the model's choice, a free value (assumption 6). -/
def Obligations.RenewRestartsTheHold : Prop :=
  ∀ (s : State) (p : Port) (r : Request), s.presents .renew p r →
    let i : DescIx := handleIx r.handle
    let ends := fun code v => ∃ t, exec (.renew p) s = .next t ∧ s.onlyCompletes t p r code v
    let v : Vals := { v0 := r.handle }
    (handleBad r.handle = true → ends .badRequest v) ∧
    (handleBad r.handle = false → s.stale r.handle = true → ends .staleHandle v) ∧
    (handleBad r.handle = false → s.stale r.handle = false → (s.desc i).holder ≠ some p → ends .notHolder v) ∧
    (handleBad r.handle = false → s.stale r.handle = false → (s.desc i).holder = some p → (s.desc i).state ≠ .held →
      ends .wrongState v) ∧
    ∀ b tr timer n a, handleBad r.handle = false → s.stale r.handle = false →
      (s.desc i).life = .held b tr p timer n → s.chan tr.channel = .active a →
      (a.params.holdLimit = 0 → ends .done { v with v2 := BitVec.ofNat 16 n }) ∧
      (0 < a.params.holdLimit → n < a.params.renewLimit →
        exec (.renew p) s = .next ((s.setHpi p ((s.hpi p).afterCompletion r.tag .renew .done
          { v with v1 := BitVec.ofNat 16 a.params.holdLimit, v2 := BitVec.ofNat 16 (n + 1) } s.stamp)).setDesc i
            ⟨(s.desc i).generation, .held b tr p (some (.running a.params.holdLimit)) (n + 1)⟩)) ∧
      (∀ left, 0 < a.params.holdLimit → a.params.renewLimit ≤ n → timer = some (.running left) →
        ends .renewLimit { v with v1 := BitVec.ofNat 16 left, v2 := BitVec.ofNat 16 n }) ∧
      (0 < a.params.holdLimit → a.params.renewLimit ≤ n → timer = some .ranOut →
        ∃ x, exec (.renew p) s = .next
          { s.setHpi p ((s.hpi p).afterCompletion r.tag .renew .renewLimit
              { v with v1 := x, v2 := BitVec.ofNat 16 n } s.stamp) with
            freeDraws := s.freeDraws + 1 })

/-- REFILL of a COLLECTED buffer by its holder makes it FILLING with generation, origin, block list and damaged flag kept and
every other field cleared, and completes with handle, block count and damaged flag; nothing else changes. One that fails a
check of R15 is refused in their order (R83). -/
def Obligations.RefillStartsAgain : Prop :=
  ∀ (s : State) (p : Port) (r : Request), s.presents .refill p r →
    let i : DescIx := handleIx r.handle
    let refused := fun code => ∃ t, exec (.refill p) s = .next t ∧ s.onlyCompletes t p r code {}
    if r.handle.getLsbD 7 = true then refused .badRequest
    else if s.stale r.handle = true then refused .staleHandle
    else if (s.desc i).holder ≠ some p then refused .notHolder
    else
      match (s.desc i).life with
      | .collected b _ _ => exec (.refill p) s = .next ((s.setHpi p ((s.hpi p).afterCompletion r.tag .refill .done
          { v0 := r.handle, blockCount := b.blocks.length, damaged := b.damaged } s.stamp)).setDesc i
            ⟨(s.desc i).generation, .filling b⟩)
      | _ => refused .wrongState

/-- The expiry of a hold timer revokes the buffer. On ONE_WAY, and on ROUND_TRIP with the producer gone, it becomes FREE; on
ROUND_TRIP with the producer ONLINE it goes, REVOKED with no reply length, to the oldest waiting COLLECT or to the tail of
the return queue with RETURN_ARRIVAL if that was empty. An ONLINE consumer receives REVOKED. A CLOSING channel left with
nothing in transit then unbinds: CHANNEL_UNBOUND stands behind the REVOKED of the consumer and behind the COLLECT
completions of the producer. A timer that has not run out has no expiry (R92 to R94, R56). -/
def Obligations.HoldExpiryRevokes : Prop :=
  ∀ (s : State) (i : DescIx),
    ((∀ b tr p n, (s.desc i).life ≠ .held b tr p (some .ranOut) n) → exec (.holdExpiry i) s = .next s) ∧
    ∀ b tr p n a, (s.desc i).life = .held b tr p (some .ranOut) n → s.chan tr.channel = .active a →
      a.params.consumer = p → a.params.producer ≠ p → b.blocks.Nodup →
      (∀ w ∈ a.collectWaits, s.hasRequest a.params.producer w.tag .collect) → (a.collectWaits.map Wait.tag).Nodup →
      ∃ t, exec (.holdExpiry i) s = .next t ∧
        s.leaves t i b tr a ⟨.revoked, none⟩ ((s.hpi p).afterNotice .revoked
          { channel := BitVec.ofNat 4 tr.channel.val, v0 := s.handle i, v1 := tr.sequence } s.stamp)

end
end

