-- ==== Sys2Proof/Laws/State.lean ====
section
/-!
SUPPORT. One lemma for each field under each update of the state, and what each accessor reads after each update of its
own record.
-/

namespace Sys2Proof.Machine

/-! ### Fields an update leaves alone -/
@[simp] theorem State.setHpi_resetIn (s : State) (p : Port) (h : Hpi) : (s.setHpi p h).resetIn = s.resetIn := rfl
@[simp] theorem State.setHpi_device (s : State) (p : Port) (h : Hpi) : (s.setHpi p h).device = s.device := rfl
@[simp] theorem State.setHpi_ticks (s : State) (p : Port) (h : Hpi) : (s.setHpi p h).ticks = s.ticks := rfl
@[simp] theorem State.setHpi_descs (s : State) (p : Port) (h : Hpi) : (s.setHpi p h).descs = s.descs := rfl
@[simp] theorem State.setHpi_blocks (s : State) (p : Port) (h : Hpi) : (s.setHpi p h).blocks = s.blocks := rfl
@[simp] theorem State.setHpi_freeList (s : State) (p : Port) (h : Hpi) : (s.setHpi p h).freeList = s.freeList := rfl
@[simp] theorem State.setHpi_retired (s : State) (p : Port) (h : Hpi) : (s.setHpi p h).retired = s.retired := rfl
@[simp] theorem State.setHpi_quotas (s : State) (p : Port) (h : Hpi) : (s.setHpi p h).quotas = s.quotas := rfl
@[simp] theorem State.setHpi_allocWaits (s : State) (p : Port) (h : Hpi) : (s.setHpi p h).allocWaits = s.allocWaits := rfl
@[simp] theorem State.setHpi_reexamsDue (s : State) (p : Port) (h : Hpi) : (s.setHpi p h).reexamsDue = s.reexamsDue := rfl
@[simp] theorem State.setHpi_chans (s : State) (p : Port) (h : Hpi) : (s.setHpi p h).chans = s.chans := rfl
@[simp] theorem State.setHpi_mem (s : State) (p : Port) (h : Hpi) : (s.setHpi p h).mem = s.mem := rfl
@[simp] theorem State.setHpi_upsets (s : State) (p : Port) (h : Hpi) : (s.setHpi p h).upsets = s.upsets := rfl
@[simp] theorem State.setHpi_stuckCells (s : State) (p : Port) (h : Hpi) : (s.setHpi p h).stuckCells = s.stuckCells := rfl
@[simp] theorem State.setHpi_retest (s : State) (p : Port) (h : Hpi) : (s.setHpi p h).retest = s.retest := rfl
@[simp] theorem State.setHpi_freeDraws (s : State) (p : Port) (h : Hpi) : (s.setHpi p h).freeDraws = s.freeDraws := rfl
@[simp] theorem State.setHpi_pending (s : State) (p : Port) (h : Hpi) : (s.setHpi p h).pending = s.pending := rfl

@[simp] theorem State.setDesc_resetIn (s : State) (i : DescIx) (d : Desc) : (s.setDesc i d).resetIn = s.resetIn := rfl
@[simp] theorem State.setDesc_device (s : State) (i : DescIx) (d : Desc) : (s.setDesc i d).device = s.device := rfl
@[simp] theorem State.setDesc_ticks (s : State) (i : DescIx) (d : Desc) : (s.setDesc i d).ticks = s.ticks := rfl
@[simp] theorem State.setDesc_ports (s : State) (i : DescIx) (d : Desc) : (s.setDesc i d).ports = s.ports := rfl
@[simp] theorem State.setDesc_blocks (s : State) (i : DescIx) (d : Desc) : (s.setDesc i d).blocks = s.blocks := rfl
@[simp] theorem State.setDesc_freeList (s : State) (i : DescIx) (d : Desc) : (s.setDesc i d).freeList = s.freeList := rfl
@[simp] theorem State.setDesc_retired (s : State) (i : DescIx) (d : Desc) : (s.setDesc i d).retired = s.retired := rfl
@[simp] theorem State.setDesc_quotas (s : State) (i : DescIx) (d : Desc) : (s.setDesc i d).quotas = s.quotas := rfl
@[simp] theorem State.setDesc_allocWaits (s : State) (i : DescIx) (d : Desc) : (s.setDesc i d).allocWaits = s.allocWaits := rfl
@[simp] theorem State.setDesc_reexamsDue (s : State) (i : DescIx) (d : Desc) : (s.setDesc i d).reexamsDue = s.reexamsDue := rfl
@[simp] theorem State.setDesc_chans (s : State) (i : DescIx) (d : Desc) : (s.setDesc i d).chans = s.chans := rfl
@[simp] theorem State.setDesc_mem (s : State) (i : DescIx) (d : Desc) : (s.setDesc i d).mem = s.mem := rfl
@[simp] theorem State.setDesc_upsets (s : State) (i : DescIx) (d : Desc) : (s.setDesc i d).upsets = s.upsets := rfl
@[simp] theorem State.setDesc_stuckCells (s : State) (i : DescIx) (d : Desc) : (s.setDesc i d).stuckCells = s.stuckCells := rfl
@[simp] theorem State.setDesc_retest (s : State) (i : DescIx) (d : Desc) : (s.setDesc i d).retest = s.retest := rfl
@[simp] theorem State.setDesc_freeDraws (s : State) (i : DescIx) (d : Desc) : (s.setDesc i d).freeDraws = s.freeDraws := rfl
@[simp] theorem State.setDesc_pending (s : State) (i : DescIx) (d : Desc) : (s.setDesc i d).pending = s.pending := rfl

@[simp] theorem State.setLife_resetIn (s : State) (i : DescIx) (l : Life) : (s.setLife i l).resetIn = s.resetIn := rfl
@[simp] theorem State.setLife_device (s : State) (i : DescIx) (l : Life) : (s.setLife i l).device = s.device := rfl
@[simp] theorem State.setLife_ticks (s : State) (i : DescIx) (l : Life) : (s.setLife i l).ticks = s.ticks := rfl
@[simp] theorem State.setLife_ports (s : State) (i : DescIx) (l : Life) : (s.setLife i l).ports = s.ports := rfl
@[simp] theorem State.setLife_blocks (s : State) (i : DescIx) (l : Life) : (s.setLife i l).blocks = s.blocks := rfl
@[simp] theorem State.setLife_freeList (s : State) (i : DescIx) (l : Life) : (s.setLife i l).freeList = s.freeList := rfl
@[simp] theorem State.setLife_retired (s : State) (i : DescIx) (l : Life) : (s.setLife i l).retired = s.retired := rfl
@[simp] theorem State.setLife_quotas (s : State) (i : DescIx) (l : Life) : (s.setLife i l).quotas = s.quotas := rfl
@[simp] theorem State.setLife_allocWaits (s : State) (i : DescIx) (l : Life) : (s.setLife i l).allocWaits = s.allocWaits := rfl
@[simp] theorem State.setLife_reexamsDue (s : State) (i : DescIx) (l : Life) : (s.setLife i l).reexamsDue = s.reexamsDue := rfl
@[simp] theorem State.setLife_chans (s : State) (i : DescIx) (l : Life) : (s.setLife i l).chans = s.chans := rfl
@[simp] theorem State.setLife_mem (s : State) (i : DescIx) (l : Life) : (s.setLife i l).mem = s.mem := rfl
@[simp] theorem State.setLife_upsets (s : State) (i : DescIx) (l : Life) : (s.setLife i l).upsets = s.upsets := rfl
@[simp] theorem State.setLife_stuckCells (s : State) (i : DescIx) (l : Life) : (s.setLife i l).stuckCells = s.stuckCells := rfl
@[simp] theorem State.setLife_retest (s : State) (i : DescIx) (l : Life) : (s.setLife i l).retest = s.retest := rfl
@[simp] theorem State.setLife_freeDraws (s : State) (i : DescIx) (l : Life) : (s.setLife i l).freeDraws = s.freeDraws := rfl
@[simp] theorem State.setLife_pending (s : State) (i : DescIx) (l : Life) : (s.setLife i l).pending = s.pending := rfl

@[simp] theorem State.setBlock_resetIn (s : State) (b : BlockIx) (x : BlockRec) : (s.setBlock b x).resetIn = s.resetIn := rfl
@[simp] theorem State.setBlock_device (s : State) (b : BlockIx) (x : BlockRec) : (s.setBlock b x).device = s.device := rfl
@[simp] theorem State.setBlock_ticks (s : State) (b : BlockIx) (x : BlockRec) : (s.setBlock b x).ticks = s.ticks := rfl
@[simp] theorem State.setBlock_ports (s : State) (b : BlockIx) (x : BlockRec) : (s.setBlock b x).ports = s.ports := rfl
@[simp] theorem State.setBlock_descs (s : State) (b : BlockIx) (x : BlockRec) : (s.setBlock b x).descs = s.descs := rfl
@[simp] theorem State.setBlock_freeList (s : State) (b : BlockIx) (x : BlockRec) : (s.setBlock b x).freeList = s.freeList := rfl
@[simp] theorem State.setBlock_retired (s : State) (b : BlockIx) (x : BlockRec) : (s.setBlock b x).retired = s.retired := rfl
@[simp] theorem State.setBlock_quotas (s : State) (b : BlockIx) (x : BlockRec) : (s.setBlock b x).quotas = s.quotas := rfl
@[simp] theorem State.setBlock_allocWaits (s : State) (b : BlockIx) (x : BlockRec) : (s.setBlock b x).allocWaits = s.allocWaits := rfl
@[simp] theorem State.setBlock_reexamsDue (s : State) (b : BlockIx) (x : BlockRec) : (s.setBlock b x).reexamsDue = s.reexamsDue := rfl
@[simp] theorem State.setBlock_chans (s : State) (b : BlockIx) (x : BlockRec) : (s.setBlock b x).chans = s.chans := rfl
@[simp] theorem State.setBlock_mem (s : State) (b : BlockIx) (x : BlockRec) : (s.setBlock b x).mem = s.mem := rfl
@[simp] theorem State.setBlock_upsets (s : State) (b : BlockIx) (x : BlockRec) : (s.setBlock b x).upsets = s.upsets := rfl
@[simp] theorem State.setBlock_stuckCells (s : State) (b : BlockIx) (x : BlockRec) : (s.setBlock b x).stuckCells = s.stuckCells := rfl
@[simp] theorem State.setBlock_retest (s : State) (b : BlockIx) (x : BlockRec) : (s.setBlock b x).retest = s.retest := rfl
@[simp] theorem State.setBlock_freeDraws (s : State) (b : BlockIx) (x : BlockRec) : (s.setBlock b x).freeDraws = s.freeDraws := rfl
@[simp] theorem State.setBlock_pending (s : State) (b : BlockIx) (x : BlockRec) : (s.setBlock b x).pending = s.pending := rfl

@[simp] theorem State.setChan_resetIn (s : State) (c : ChanIx) (x : Chan) : (s.setChan c x).resetIn = s.resetIn := rfl
@[simp] theorem State.setChan_device (s : State) (c : ChanIx) (x : Chan) : (s.setChan c x).device = s.device := rfl
@[simp] theorem State.setChan_ticks (s : State) (c : ChanIx) (x : Chan) : (s.setChan c x).ticks = s.ticks := rfl
@[simp] theorem State.setChan_ports (s : State) (c : ChanIx) (x : Chan) : (s.setChan c x).ports = s.ports := rfl
@[simp] theorem State.setChan_descs (s : State) (c : ChanIx) (x : Chan) : (s.setChan c x).descs = s.descs := rfl
@[simp] theorem State.setChan_blocks (s : State) (c : ChanIx) (x : Chan) : (s.setChan c x).blocks = s.blocks := rfl
@[simp] theorem State.setChan_freeList (s : State) (c : ChanIx) (x : Chan) : (s.setChan c x).freeList = s.freeList := rfl
@[simp] theorem State.setChan_retired (s : State) (c : ChanIx) (x : Chan) : (s.setChan c x).retired = s.retired := rfl
@[simp] theorem State.setChan_quotas (s : State) (c : ChanIx) (x : Chan) : (s.setChan c x).quotas = s.quotas := rfl
@[simp] theorem State.setChan_allocWaits (s : State) (c : ChanIx) (x : Chan) : (s.setChan c x).allocWaits = s.allocWaits := rfl
@[simp] theorem State.setChan_reexamsDue (s : State) (c : ChanIx) (x : Chan) : (s.setChan c x).reexamsDue = s.reexamsDue := rfl
@[simp] theorem State.setChan_mem (s : State) (c : ChanIx) (x : Chan) : (s.setChan c x).mem = s.mem := rfl
@[simp] theorem State.setChan_upsets (s : State) (c : ChanIx) (x : Chan) : (s.setChan c x).upsets = s.upsets := rfl
@[simp] theorem State.setChan_stuckCells (s : State) (c : ChanIx) (x : Chan) : (s.setChan c x).stuckCells = s.stuckCells := rfl
@[simp] theorem State.setChan_retest (s : State) (c : ChanIx) (x : Chan) : (s.setChan c x).retest = s.retest := rfl
@[simp] theorem State.setChan_freeDraws (s : State) (c : ChanIx) (x : Chan) : (s.setChan c x).freeDraws = s.freeDraws := rfl
@[simp] theorem State.setChan_pending (s : State) (c : ChanIx) (x : Chan) : (s.setChan c x).pending = s.pending := rfl

@[simp] theorem State.setQuota_resetIn (s : State) (p : Port) (n : Nat) : (s.setQuota p n).resetIn = s.resetIn := rfl
@[simp] theorem State.setQuota_device (s : State) (p : Port) (n : Nat) : (s.setQuota p n).device = s.device := rfl
@[simp] theorem State.setQuota_ticks (s : State) (p : Port) (n : Nat) : (s.setQuota p n).ticks = s.ticks := rfl
@[simp] theorem State.setQuota_ports (s : State) (p : Port) (n : Nat) : (s.setQuota p n).ports = s.ports := rfl
@[simp] theorem State.setQuota_descs (s : State) (p : Port) (n : Nat) : (s.setQuota p n).descs = s.descs := rfl
@[simp] theorem State.setQuota_blocks (s : State) (p : Port) (n : Nat) : (s.setQuota p n).blocks = s.blocks := rfl
@[simp] theorem State.setQuota_freeList (s : State) (p : Port) (n : Nat) : (s.setQuota p n).freeList = s.freeList := rfl
@[simp] theorem State.setQuota_retired (s : State) (p : Port) (n : Nat) : (s.setQuota p n).retired = s.retired := rfl
@[simp] theorem State.setQuota_allocWaits (s : State) (p : Port) (n : Nat) : (s.setQuota p n).allocWaits = s.allocWaits := rfl
@[simp] theorem State.setQuota_reexamsDue (s : State) (p : Port) (n : Nat) : (s.setQuota p n).reexamsDue = s.reexamsDue := rfl
@[simp] theorem State.setQuota_chans (s : State) (p : Port) (n : Nat) : (s.setQuota p n).chans = s.chans := rfl
@[simp] theorem State.setQuota_mem (s : State) (p : Port) (n : Nat) : (s.setQuota p n).mem = s.mem := rfl
@[simp] theorem State.setQuota_upsets (s : State) (p : Port) (n : Nat) : (s.setQuota p n).upsets = s.upsets := rfl
@[simp] theorem State.setQuota_stuckCells (s : State) (p : Port) (n : Nat) : (s.setQuota p n).stuckCells = s.stuckCells := rfl
@[simp] theorem State.setQuota_retest (s : State) (p : Port) (n : Nat) : (s.setQuota p n).retest = s.retest := rfl
@[simp] theorem State.setQuota_freeDraws (s : State) (p : Port) (n : Nat) : (s.setQuota p n).freeDraws = s.freeDraws := rfl
@[simp] theorem State.setQuota_pending (s : State) (p : Port) (n : Nat) : (s.setQuota p n).pending = s.pending := rfl

@[simp] theorem State.setSlot_resetIn (s : State) (p : Port) (k : Fin 8) (x : Option Word) : (s.setSlot p k x).resetIn = s.resetIn := rfl
@[simp] theorem State.setSlot_device (s : State) (p : Port) (k : Fin 8) (x : Option Word) : (s.setSlot p k x).device = s.device := rfl
@[simp] theorem State.setSlot_ticks (s : State) (p : Port) (k : Fin 8) (x : Option Word) : (s.setSlot p k x).ticks = s.ticks := rfl
@[simp] theorem State.setSlot_descs (s : State) (p : Port) (k : Fin 8) (x : Option Word) : (s.setSlot p k x).descs = s.descs := rfl
@[simp] theorem State.setSlot_blocks (s : State) (p : Port) (k : Fin 8) (x : Option Word) : (s.setSlot p k x).blocks = s.blocks := rfl
@[simp] theorem State.setSlot_freeList (s : State) (p : Port) (k : Fin 8) (x : Option Word) : (s.setSlot p k x).freeList = s.freeList := rfl
@[simp] theorem State.setSlot_retired (s : State) (p : Port) (k : Fin 8) (x : Option Word) : (s.setSlot p k x).retired = s.retired := rfl
@[simp] theorem State.setSlot_quotas (s : State) (p : Port) (k : Fin 8) (x : Option Word) : (s.setSlot p k x).quotas = s.quotas := rfl
@[simp] theorem State.setSlot_allocWaits (s : State) (p : Port) (k : Fin 8) (x : Option Word) : (s.setSlot p k x).allocWaits = s.allocWaits := rfl
@[simp] theorem State.setSlot_reexamsDue (s : State) (p : Port) (k : Fin 8) (x : Option Word) : (s.setSlot p k x).reexamsDue = s.reexamsDue := rfl
@[simp] theorem State.setSlot_chans (s : State) (p : Port) (k : Fin 8) (x : Option Word) : (s.setSlot p k x).chans = s.chans := rfl
@[simp] theorem State.setSlot_mem (s : State) (p : Port) (k : Fin 8) (x : Option Word) : (s.setSlot p k x).mem = s.mem := rfl
@[simp] theorem State.setSlot_upsets (s : State) (p : Port) (k : Fin 8) (x : Option Word) : (s.setSlot p k x).upsets = s.upsets := rfl
@[simp] theorem State.setSlot_stuckCells (s : State) (p : Port) (k : Fin 8) (x : Option Word) : (s.setSlot p k x).stuckCells = s.stuckCells := rfl
@[simp] theorem State.setSlot_retest (s : State) (p : Port) (k : Fin 8) (x : Option Word) : (s.setSlot p k x).retest = s.retest := rfl
@[simp] theorem State.setSlot_freeDraws (s : State) (p : Port) (k : Fin 8) (x : Option Word) : (s.setSlot p k x).freeDraws = s.freeDraws := rfl
@[simp] theorem State.setSlot_pending (s : State) (p : Port) (k : Fin 8) (x : Option Word) : (s.setSlot p k x).pending = s.pending := rfl

@[simp] theorem State.driveData_resetIn (s : State) (p : Port) (w : Word) : (s.driveData p w).resetIn = s.resetIn := rfl
@[simp] theorem State.driveData_device (s : State) (p : Port) (w : Word) : (s.driveData p w).device = s.device := rfl
@[simp] theorem State.driveData_ticks (s : State) (p : Port) (w : Word) : (s.driveData p w).ticks = s.ticks := rfl
@[simp] theorem State.driveData_descs (s : State) (p : Port) (w : Word) : (s.driveData p w).descs = s.descs := rfl
@[simp] theorem State.driveData_blocks (s : State) (p : Port) (w : Word) : (s.driveData p w).blocks = s.blocks := rfl
@[simp] theorem State.driveData_freeList (s : State) (p : Port) (w : Word) : (s.driveData p w).freeList = s.freeList := rfl
@[simp] theorem State.driveData_retired (s : State) (p : Port) (w : Word) : (s.driveData p w).retired = s.retired := rfl
@[simp] theorem State.driveData_quotas (s : State) (p : Port) (w : Word) : (s.driveData p w).quotas = s.quotas := rfl
@[simp] theorem State.driveData_allocWaits (s : State) (p : Port) (w : Word) : (s.driveData p w).allocWaits = s.allocWaits := rfl
@[simp] theorem State.driveData_reexamsDue (s : State) (p : Port) (w : Word) : (s.driveData p w).reexamsDue = s.reexamsDue := rfl
@[simp] theorem State.driveData_chans (s : State) (p : Port) (w : Word) : (s.driveData p w).chans = s.chans := rfl
@[simp] theorem State.driveData_mem (s : State) (p : Port) (w : Word) : (s.driveData p w).mem = s.mem := rfl
@[simp] theorem State.driveData_upsets (s : State) (p : Port) (w : Word) : (s.driveData p w).upsets = s.upsets := rfl
@[simp] theorem State.driveData_stuckCells (s : State) (p : Port) (w : Word) : (s.driveData p w).stuckCells = s.stuckCells := rfl
@[simp] theorem State.driveData_retest (s : State) (p : Port) (w : Word) : (s.driveData p w).retest = s.retest := rfl
@[simp] theorem State.driveData_freeDraws (s : State) (p : Port) (w : Word) : (s.driveData p w).freeDraws = s.freeDraws := rfl
@[simp] theorem State.driveData_pending (s : State) (p : Port) (w : Word) : (s.driveData p w).pending = s.pending := rfl

@[simp] theorem State.writeRecord_resetIn (s : State) (p : Port) (r : EventRecord) : (s.writeRecord p r).resetIn = s.resetIn := rfl
@[simp] theorem State.writeRecord_device (s : State) (p : Port) (r : EventRecord) : (s.writeRecord p r).device = s.device := rfl
@[simp] theorem State.writeRecord_ticks (s : State) (p : Port) (r : EventRecord) : (s.writeRecord p r).ticks = s.ticks := rfl
@[simp] theorem State.writeRecord_descs (s : State) (p : Port) (r : EventRecord) : (s.writeRecord p r).descs = s.descs := rfl
@[simp] theorem State.writeRecord_blocks (s : State) (p : Port) (r : EventRecord) : (s.writeRecord p r).blocks = s.blocks := rfl
@[simp] theorem State.writeRecord_freeList (s : State) (p : Port) (r : EventRecord) : (s.writeRecord p r).freeList = s.freeList := rfl
@[simp] theorem State.writeRecord_retired (s : State) (p : Port) (r : EventRecord) : (s.writeRecord p r).retired = s.retired := rfl
@[simp] theorem State.writeRecord_quotas (s : State) (p : Port) (r : EventRecord) : (s.writeRecord p r).quotas = s.quotas := rfl
@[simp] theorem State.writeRecord_allocWaits (s : State) (p : Port) (r : EventRecord) : (s.writeRecord p r).allocWaits = s.allocWaits := rfl
@[simp] theorem State.writeRecord_reexamsDue (s : State) (p : Port) (r : EventRecord) : (s.writeRecord p r).reexamsDue = s.reexamsDue := rfl
@[simp] theorem State.writeRecord_chans (s : State) (p : Port) (r : EventRecord) : (s.writeRecord p r).chans = s.chans := rfl
@[simp] theorem State.writeRecord_mem (s : State) (p : Port) (r : EventRecord) : (s.writeRecord p r).mem = s.mem := rfl
@[simp] theorem State.writeRecord_upsets (s : State) (p : Port) (r : EventRecord) : (s.writeRecord p r).upsets = s.upsets := rfl
@[simp] theorem State.writeRecord_stuckCells (s : State) (p : Port) (r : EventRecord) : (s.writeRecord p r).stuckCells = s.stuckCells := rfl
@[simp] theorem State.writeRecord_retest (s : State) (p : Port) (r : EventRecord) : (s.writeRecord p r).retest = s.retest := rfl
@[simp] theorem State.writeRecord_freeDraws (s : State) (p : Port) (r : EventRecord) : (s.writeRecord p r).freeDraws = s.freeDraws := rfl
@[simp] theorem State.writeRecord_pending (s : State) (p : Port) (r : EventRecord) : (s.writeRecord p r).pending = s.pending := rfl

@[simp] theorem State.leaveOutstanding_resetIn (s : State) (p : Port) (tag : Tag) (x : EntryState) : (s.leaveOutstanding p tag x).resetIn = s.resetIn := rfl
@[simp] theorem State.leaveOutstanding_device (s : State) (p : Port) (tag : Tag) (x : EntryState) : (s.leaveOutstanding p tag x).device = s.device := rfl
@[simp] theorem State.leaveOutstanding_ticks (s : State) (p : Port) (tag : Tag) (x : EntryState) : (s.leaveOutstanding p tag x).ticks = s.ticks := rfl
@[simp] theorem State.leaveOutstanding_descs (s : State) (p : Port) (tag : Tag) (x : EntryState) : (s.leaveOutstanding p tag x).descs = s.descs := rfl
@[simp] theorem State.leaveOutstanding_blocks (s : State) (p : Port) (tag : Tag) (x : EntryState) : (s.leaveOutstanding p tag x).blocks = s.blocks := rfl
@[simp] theorem State.leaveOutstanding_freeList (s : State) (p : Port) (tag : Tag) (x : EntryState) : (s.leaveOutstanding p tag x).freeList = s.freeList := rfl
@[simp] theorem State.leaveOutstanding_retired (s : State) (p : Port) (tag : Tag) (x : EntryState) : (s.leaveOutstanding p tag x).retired = s.retired := rfl
@[simp] theorem State.leaveOutstanding_quotas (s : State) (p : Port) (tag : Tag) (x : EntryState) : (s.leaveOutstanding p tag x).quotas = s.quotas := rfl
@[simp] theorem State.leaveOutstanding_allocWaits (s : State) (p : Port) (tag : Tag) (x : EntryState) : (s.leaveOutstanding p tag x).allocWaits = s.allocWaits := rfl
@[simp] theorem State.leaveOutstanding_reexamsDue (s : State) (p : Port) (tag : Tag) (x : EntryState) : (s.leaveOutstanding p tag x).reexamsDue = s.reexamsDue := rfl
@[simp] theorem State.leaveOutstanding_chans (s : State) (p : Port) (tag : Tag) (x : EntryState) : (s.leaveOutstanding p tag x).chans = s.chans := rfl
@[simp] theorem State.leaveOutstanding_mem (s : State) (p : Port) (tag : Tag) (x : EntryState) : (s.leaveOutstanding p tag x).mem = s.mem := rfl
@[simp] theorem State.leaveOutstanding_upsets (s : State) (p : Port) (tag : Tag) (x : EntryState) : (s.leaveOutstanding p tag x).upsets = s.upsets := rfl
@[simp] theorem State.leaveOutstanding_stuckCells (s : State) (p : Port) (tag : Tag) (x : EntryState) : (s.leaveOutstanding p tag x).stuckCells = s.stuckCells := rfl
@[simp] theorem State.leaveOutstanding_retest (s : State) (p : Port) (tag : Tag) (x : EntryState) : (s.leaveOutstanding p tag x).retest = s.retest := rfl
@[simp] theorem State.leaveOutstanding_freeDraws (s : State) (p : Port) (tag : Tag) (x : EntryState) : (s.leaveOutstanding p tag x).freeDraws = s.freeDraws := rfl
@[simp] theorem State.leaveOutstanding_pending (s : State) (p : Port) (tag : Tag) (x : EntryState) : (s.leaveOutstanding p tag x).pending = s.pending := rfl

@[simp] theorem State.drawn_resetIn (s : State) : (s.drawn).resetIn = s.resetIn := rfl
@[simp] theorem State.drawn_device (s : State) : (s.drawn).device = s.device := rfl
@[simp] theorem State.drawn_ticks (s : State) : (s.drawn).ticks = s.ticks := rfl
@[simp] theorem State.drawn_ports (s : State) : (s.drawn).ports = s.ports := rfl
@[simp] theorem State.drawn_descs (s : State) : (s.drawn).descs = s.descs := rfl
@[simp] theorem State.drawn_blocks (s : State) : (s.drawn).blocks = s.blocks := rfl
@[simp] theorem State.drawn_freeList (s : State) : (s.drawn).freeList = s.freeList := rfl
@[simp] theorem State.drawn_retired (s : State) : (s.drawn).retired = s.retired := rfl
@[simp] theorem State.drawn_quotas (s : State) : (s.drawn).quotas = s.quotas := rfl
@[simp] theorem State.drawn_allocWaits (s : State) : (s.drawn).allocWaits = s.allocWaits := rfl
@[simp] theorem State.drawn_reexamsDue (s : State) : (s.drawn).reexamsDue = s.reexamsDue := rfl
@[simp] theorem State.drawn_chans (s : State) : (s.drawn).chans = s.chans := rfl
@[simp] theorem State.drawn_mem (s : State) : (s.drawn).mem = s.mem := rfl
@[simp] theorem State.drawn_upsets (s : State) : (s.drawn).upsets = s.upsets := rfl
@[simp] theorem State.drawn_stuckCells (s : State) : (s.drawn).stuckCells = s.stuckCells := rfl
@[simp] theorem State.drawn_retest (s : State) : (s.drawn).retest = s.retest := rfl
@[simp] theorem State.drawn_pending (s : State) : (s.drawn).pending = s.pending := rfl

@[simp] theorem State.callReexam_resetIn (s : State) : (s.callReexam).resetIn = s.resetIn := rfl
@[simp] theorem State.callReexam_device (s : State) : (s.callReexam).device = s.device := rfl
@[simp] theorem State.callReexam_ticks (s : State) : (s.callReexam).ticks = s.ticks := rfl
@[simp] theorem State.callReexam_ports (s : State) : (s.callReexam).ports = s.ports := rfl
@[simp] theorem State.callReexam_descs (s : State) : (s.callReexam).descs = s.descs := rfl
@[simp] theorem State.callReexam_blocks (s : State) : (s.callReexam).blocks = s.blocks := rfl
@[simp] theorem State.callReexam_freeList (s : State) : (s.callReexam).freeList = s.freeList := rfl
@[simp] theorem State.callReexam_retired (s : State) : (s.callReexam).retired = s.retired := rfl
@[simp] theorem State.callReexam_quotas (s : State) : (s.callReexam).quotas = s.quotas := rfl
@[simp] theorem State.callReexam_allocWaits (s : State) : (s.callReexam).allocWaits = s.allocWaits := rfl
@[simp] theorem State.callReexam_chans (s : State) : (s.callReexam).chans = s.chans := rfl
@[simp] theorem State.callReexam_mem (s : State) : (s.callReexam).mem = s.mem := rfl
@[simp] theorem State.callReexam_upsets (s : State) : (s.callReexam).upsets = s.upsets := rfl
@[simp] theorem State.callReexam_stuckCells (s : State) : (s.callReexam).stuckCells = s.stuckCells := rfl
@[simp] theorem State.callReexam_retest (s : State) : (s.callReexam).retest = s.retest := rfl
@[simp] theorem State.callReexam_freeDraws (s : State) : (s.callReexam).freeDraws = s.freeDraws := rfl
@[simp] theorem State.callReexam_pending (s : State) : (s.callReexam).pending = s.pending := rfl

@[simp] theorem State.zeroMemory_resetIn (s : State) : (s.zeroMemory).resetIn = s.resetIn := rfl
@[simp] theorem State.zeroMemory_device (s : State) : (s.zeroMemory).device = s.device := rfl
@[simp] theorem State.zeroMemory_ticks (s : State) : (s.zeroMemory).ticks = s.ticks := rfl
@[simp] theorem State.zeroMemory_ports (s : State) : (s.zeroMemory).ports = s.ports := rfl
@[simp] theorem State.zeroMemory_descs (s : State) : (s.zeroMemory).descs = s.descs := rfl
@[simp] theorem State.zeroMemory_blocks (s : State) : (s.zeroMemory).blocks = s.blocks := rfl
@[simp] theorem State.zeroMemory_freeList (s : State) : (s.zeroMemory).freeList = s.freeList := rfl
@[simp] theorem State.zeroMemory_retired (s : State) : (s.zeroMemory).retired = s.retired := rfl
@[simp] theorem State.zeroMemory_quotas (s : State) : (s.zeroMemory).quotas = s.quotas := rfl
@[simp] theorem State.zeroMemory_allocWaits (s : State) : (s.zeroMemory).allocWaits = s.allocWaits := rfl
@[simp] theorem State.zeroMemory_reexamsDue (s : State) : (s.zeroMemory).reexamsDue = s.reexamsDue := rfl
@[simp] theorem State.zeroMemory_chans (s : State) : (s.zeroMemory).chans = s.chans := rfl
@[simp] theorem State.zeroMemory_stuckCells (s : State) : (s.zeroMemory).stuckCells = s.stuckCells := rfl
@[simp] theorem State.zeroMemory_retest (s : State) : (s.zeroMemory).retest = s.retest := rfl
@[simp] theorem State.zeroMemory_freeDraws (s : State) : (s.zeroMemory).freeDraws = s.freeDraws := rfl
@[simp] theorem State.zeroMemory_pending (s : State) : (s.zeroMemory).pending = s.pending := rfl

@[simp] theorem State.zeroBlock_resetIn (s : State) (b : BlockIx) : (s.zeroBlock b).resetIn = s.resetIn := rfl
@[simp] theorem State.zeroBlock_device (s : State) (b : BlockIx) : (s.zeroBlock b).device = s.device := rfl
@[simp] theorem State.zeroBlock_ticks (s : State) (b : BlockIx) : (s.zeroBlock b).ticks = s.ticks := rfl
@[simp] theorem State.zeroBlock_ports (s : State) (b : BlockIx) : (s.zeroBlock b).ports = s.ports := rfl
@[simp] theorem State.zeroBlock_descs (s : State) (b : BlockIx) : (s.zeroBlock b).descs = s.descs := rfl
@[simp] theorem State.zeroBlock_blocks (s : State) (b : BlockIx) : (s.zeroBlock b).blocks = s.blocks := rfl
@[simp] theorem State.zeroBlock_freeList (s : State) (b : BlockIx) : (s.zeroBlock b).freeList = s.freeList := rfl
@[simp] theorem State.zeroBlock_retired (s : State) (b : BlockIx) : (s.zeroBlock b).retired = s.retired := rfl
@[simp] theorem State.zeroBlock_quotas (s : State) (b : BlockIx) : (s.zeroBlock b).quotas = s.quotas := rfl
@[simp] theorem State.zeroBlock_allocWaits (s : State) (b : BlockIx) : (s.zeroBlock b).allocWaits = s.allocWaits := rfl
@[simp] theorem State.zeroBlock_reexamsDue (s : State) (b : BlockIx) : (s.zeroBlock b).reexamsDue = s.reexamsDue := rfl
@[simp] theorem State.zeroBlock_chans (s : State) (b : BlockIx) : (s.zeroBlock b).chans = s.chans := rfl
@[simp] theorem State.zeroBlock_stuckCells (s : State) (b : BlockIx) : (s.zeroBlock b).stuckCells = s.stuckCells := rfl
@[simp] theorem State.zeroBlock_retest (s : State) (b : BlockIx) : (s.zeroBlock b).retest = s.retest := rfl
@[simp] theorem State.zeroBlock_freeDraws (s : State) (b : BlockIx) : (s.zeroBlock b).freeDraws = s.freeDraws := rfl
@[simp] theorem State.zeroBlock_pending (s : State) (b : BlockIx) : (s.zeroBlock b).pending = s.pending := rfl

@[simp] theorem State.storeWord_resetIn (s : State) (w : MemIx) (d : Word) : (s.storeWord w d).resetIn = s.resetIn := rfl
@[simp] theorem State.storeWord_device (s : State) (w : MemIx) (d : Word) : (s.storeWord w d).device = s.device := rfl
@[simp] theorem State.storeWord_ticks (s : State) (w : MemIx) (d : Word) : (s.storeWord w d).ticks = s.ticks := rfl
@[simp] theorem State.storeWord_ports (s : State) (w : MemIx) (d : Word) : (s.storeWord w d).ports = s.ports := rfl
@[simp] theorem State.storeWord_descs (s : State) (w : MemIx) (d : Word) : (s.storeWord w d).descs = s.descs := rfl
@[simp] theorem State.storeWord_blocks (s : State) (w : MemIx) (d : Word) : (s.storeWord w d).blocks = s.blocks := rfl
@[simp] theorem State.storeWord_freeList (s : State) (w : MemIx) (d : Word) : (s.storeWord w d).freeList = s.freeList := rfl
@[simp] theorem State.storeWord_retired (s : State) (w : MemIx) (d : Word) : (s.storeWord w d).retired = s.retired := rfl
@[simp] theorem State.storeWord_quotas (s : State) (w : MemIx) (d : Word) : (s.storeWord w d).quotas = s.quotas := rfl
@[simp] theorem State.storeWord_allocWaits (s : State) (w : MemIx) (d : Word) : (s.storeWord w d).allocWaits = s.allocWaits := rfl
@[simp] theorem State.storeWord_reexamsDue (s : State) (w : MemIx) (d : Word) : (s.storeWord w d).reexamsDue = s.reexamsDue := rfl
@[simp] theorem State.storeWord_chans (s : State) (w : MemIx) (d : Word) : (s.storeWord w d).chans = s.chans := rfl
@[simp] theorem State.storeWord_stuckCells (s : State) (w : MemIx) (d : Word) : (s.storeWord w d).stuckCells = s.stuckCells := rfl
@[simp] theorem State.storeWord_retest (s : State) (w : MemIx) (d : Word) : (s.storeWord w d).retest = s.retest := rfl
@[simp] theorem State.storeWord_freeDraws (s : State) (w : MemIx) (d : Word) : (s.storeWord w d).freeDraws = s.freeDraws := rfl
@[simp] theorem State.storeWord_pending (s : State) (w : MemIx) (d : Word) : (s.storeWord w d).pending = s.pending := rfl
@[simp] theorem State.flipBits_resetIn (s : State) (w : MemIx) (m : StoredBits) : (s.flipBits w m).resetIn = s.resetIn := rfl
@[simp] theorem State.flipBits_device (s : State) (w : MemIx) (m : StoredBits) : (s.flipBits w m).device = s.device := rfl
@[simp] theorem State.flipBits_ticks (s : State) (w : MemIx) (m : StoredBits) : (s.flipBits w m).ticks = s.ticks := rfl
@[simp] theorem State.flipBits_ports (s : State) (w : MemIx) (m : StoredBits) : (s.flipBits w m).ports = s.ports := rfl
@[simp] theorem State.flipBits_descs (s : State) (w : MemIx) (m : StoredBits) : (s.flipBits w m).descs = s.descs := rfl
@[simp] theorem State.flipBits_blocks (s : State) (w : MemIx) (m : StoredBits) : (s.flipBits w m).blocks = s.blocks := rfl
@[simp] theorem State.flipBits_freeList (s : State) (w : MemIx) (m : StoredBits) : (s.flipBits w m).freeList = s.freeList := rfl
@[simp] theorem State.flipBits_retired (s : State) (w : MemIx) (m : StoredBits) : (s.flipBits w m).retired = s.retired := rfl
@[simp] theorem State.flipBits_quotas (s : State) (w : MemIx) (m : StoredBits) : (s.flipBits w m).quotas = s.quotas := rfl
@[simp] theorem State.flipBits_allocWaits (s : State) (w : MemIx) (m : StoredBits) : (s.flipBits w m).allocWaits = s.allocWaits := rfl
@[simp] theorem State.flipBits_reexamsDue (s : State) (w : MemIx) (m : StoredBits) : (s.flipBits w m).reexamsDue = s.reexamsDue := rfl
@[simp] theorem State.flipBits_chans (s : State) (w : MemIx) (m : StoredBits) : (s.flipBits w m).chans = s.chans := rfl
@[simp] theorem State.flipBits_stuckCells (s : State) (w : MemIx) (m : StoredBits) : (s.flipBits w m).stuckCells = s.stuckCells := rfl
@[simp] theorem State.flipBits_retest (s : State) (w : MemIx) (m : StoredBits) : (s.flipBits w m).retest = s.retest := rfl
@[simp] theorem State.flipBits_freeDraws (s : State) (w : MemIx) (m : StoredBits) : (s.flipBits w m).freeDraws = s.freeDraws := rfl
@[simp] theorem State.flipBits_pending (s : State) (w : MemIx) (m : StoredBits) : (s.flipBits w m).pending = s.pending := rfl
@[simp] theorem State.flipBits_mem (s : State) (w : MemIx) (m : StoredBits) : (s.flipBits w m).mem = s.mem := rfl

/-! ### Per-port items -/

@[simp] theorem PerPort.get_set_same {α : Type} (x : PerPort α) (p : Port) (v : α) : (x.set p v).get p = v := by
  cases p <;> rfl

theorem PerPort.get_set {α : Type} (x : PerPort α) (p q : Port) (v : α) :
    (x.set p v).get q = if p = q then v else x.get q := by
  cases p <;> cases q <;> rfl

@[simp] theorem PerPort.get_all {α : Type} (x : α) (p : Port) : (PerPort.all x).get p = x := by cases p <;> rfl

@[ext] theorem PerPort.ext_get {α : Type} {x y : PerPort α} (h : ∀ p, x.get p = y.get p) : x = y := by
  cases x; cases y
  have ha := h .A; have hb := h .B; have hc := h .C; have hd := h .D
  simp only [PerPort.get] at ha hb hc hd
  simp [ha, hb, hc, hd]

@[simp] theorem PerPort.set_get_self {α : Type} (x : PerPort α) (p : Port) : x.set p (x.get p) = x := by
  cases p <;> rfl

@[simp] theorem PerPort.set_set {α : Type} (x : PerPort α) (p : Port) (v w : α) : (x.set p v).set p w = x.set p w := by
  cases p <;> rfl

/-! ### Accessors after updates -/

@[simp] theorem State.hpi_setHpi_same (s : State) (p : Port) (h : Hpi) : (s.setHpi p h).hpi p = h :=
  PerPort.get_set_same _ _ _

theorem State.hpi_setHpi (s : State) (p q : Port) (h : Hpi) :
    (s.setHpi p h).hpi q = if p = q then h else s.hpi q := PerPort.get_set _ _ _ _

@[simp] theorem State.hpi_setHpi_ne (s : State) {p q : Port} (h : Hpi) (hn : p ≠ q) :
    (s.setHpi p h).hpi q = s.hpi q := by rw [State.hpi_setHpi, if_neg hn]

@[simp] theorem State.setHpi_setHpi (s : State) (p : Port) (h k : Hpi) : (s.setHpi p h).setHpi p k = s.setHpi p k := by
  simp [State.setHpi]

@[simp] theorem State.setHpi_self (s : State) (p : Port) : s.setHpi p (s.hpi p) = s := by
  simp [State.setHpi, State.hpi]

@[simp] theorem State.desc_setDesc_same (s : State) (i : DescIx) (d : Desc) : (s.setDesc i d).desc i = d := by
  simp [State.desc, State.setDesc]

theorem State.desc_setDesc (s : State) (i j : DescIx) (d : Desc) :
    (s.setDesc i d).desc j = if i = j then d else s.desc j := by
  simp [State.desc, State.setDesc, Vector.getElem_set, Fin.ext_iff]

@[simp] theorem State.desc_setDesc_ne (s : State) {i j : DescIx} (d : Desc) (hn : i ≠ j) :
    (s.setDesc i d).desc j = s.desc j := by rw [State.desc_setDesc, if_neg hn]

@[simp] theorem State.desc_setLife_same (s : State) (i : DescIx) (l : Life) :
    (s.setLife i l).desc i = ⟨(s.desc i).generation, l⟩ := by simp [State.setLife]

theorem State.desc_setLife (s : State) (i j : DescIx) (l : Life) :
    (s.setLife i l).desc j = if i = j then ⟨(s.desc i).generation, l⟩ else s.desc j := by
  simp [State.setLife, State.desc_setDesc]

@[simp] theorem State.desc_setLife_ne (s : State) {i j : DescIx} (l : Life) (hn : i ≠ j) :
    (s.setLife i l).desc j = s.desc j := by rw [State.desc_setLife, if_neg hn]

@[simp] theorem State.block_setBlock_same (s : State) (b : BlockIx) (x : BlockRec) : (s.setBlock b x).block b = x := by
  simp [State.block, State.setBlock]

theorem State.block_setBlock (s : State) (b c : BlockIx) (x : BlockRec) :
    (s.setBlock b x).block c = if b = c then x else s.block c := by
  simp [State.block, State.setBlock, Vector.getElem_set, Fin.ext_iff]

@[simp] theorem State.chan_setChan_same (s : State) (c : ChanIx) (x : Chan) : (s.setChan c x).chan c = x := by
  simp [State.chan, State.setChan]

theorem State.chan_setChan (s : State) (c d : ChanIx) (x : Chan) :
    (s.setChan c x).chan d = if c = d then x else s.chan d := by
  simp [State.chan, State.setChan, Vector.getElem_set, Fin.ext_iff]

@[simp] theorem State.chan_setChan_ne (s : State) {c d : ChanIx} (x : Chan) (hn : c ≠ d) :
    (s.setChan c x).chan d = s.chan d := by rw [State.chan_setChan, if_neg hn]

/-! ### Accessors of one record under updates of another -/

@[simp] theorem State.desc_setHpi (s : State) (p : Port) (h : Hpi) (j : DescIx) : (s.setHpi p h).desc j = s.desc j := rfl
@[simp] theorem State.block_setHpi (s : State) (p : Port) (h : Hpi) (k' : BlockIx) :
    (s.setHpi p h).block k' = s.block k' := rfl
@[simp] theorem State.chan_setHpi (s : State) (p : Port) (h : Hpi) (d' : ChanIx) : (s.setHpi p h).chan d' = s.chan d' := rfl
@[simp] theorem State.byteAt_setHpi (s : State) (p : Port) (h : Hpi) (n' : Nat) :
    (s.setHpi p h).byteAt n' = s.byteAt n' := rfl
@[simp] theorem State.written_setHpi (s : State) (p : Port) (h : Hpi) (w' : MemIx) :
    (s.setHpi p h).written w' = s.written w' := rfl
@[simp] theorem State.upset_setHpi (s : State) (p : Port) (h : Hpi) (w' : MemIx) :
    (s.setHpi p h).upset w' = s.upset w' := rfl
@[simp] theorem State.stuck_setHpi (s : State) (p : Port) (h : Hpi) (w' : MemIx) :
    (s.setHpi p h).stuck w' = s.stuck w' := rfl
@[simp] theorem State.stamp_setHpi (s : State) (p : Port) (h : Hpi) : (s.setHpi p h).stamp = s.stamp := rfl

@[simp] theorem State.hpi_setDesc (s : State) (i : DescIx) (d : Desc) (p' : Port) : (s.setDesc i d).hpi p' = s.hpi p' := rfl
@[simp] theorem State.block_setDesc (s : State) (i : DescIx) (d : Desc) (k' : BlockIx) :
    (s.setDesc i d).block k' = s.block k' := rfl
@[simp] theorem State.chan_setDesc (s : State) (i : DescIx) (d : Desc) (d' : ChanIx) :
    (s.setDesc i d).chan d' = s.chan d' := rfl
@[simp] theorem State.online_setDesc (s : State) (i : DescIx) (d : Desc) (p' : Port) :
    (s.setDesc i d).online p' = s.online p' := rfl
@[simp] theorem State.byteAt_setDesc (s : State) (i : DescIx) (d : Desc) (n' : Nat) :
    (s.setDesc i d).byteAt n' = s.byteAt n' := rfl
@[simp] theorem State.written_setDesc (s : State) (i : DescIx) (d : Desc) (w' : MemIx) :
    (s.setDesc i d).written w' = s.written w' := rfl
@[simp] theorem State.upset_setDesc (s : State) (i : DescIx) (d : Desc) (w' : MemIx) :
    (s.setDesc i d).upset w' = s.upset w' := rfl
@[simp] theorem State.stuck_setDesc (s : State) (i : DescIx) (d : Desc) (w' : MemIx) :
    (s.setDesc i d).stuck w' = s.stuck w' := rfl
@[simp] theorem State.stamp_setDesc (s : State) (i : DescIx) (d : Desc) : (s.setDesc i d).stamp = s.stamp := rfl

@[simp] theorem State.hpi_setLife (s : State) (i : DescIx) (l : Life) (p' : Port) : (s.setLife i l).hpi p' = s.hpi p' := rfl
@[simp] theorem State.block_setLife (s : State) (i : DescIx) (l : Life) (k' : BlockIx) :
    (s.setLife i l).block k' = s.block k' := rfl
@[simp] theorem State.chan_setLife (s : State) (i : DescIx) (l : Life) (d' : ChanIx) :
    (s.setLife i l).chan d' = s.chan d' := rfl
@[simp] theorem State.online_setLife (s : State) (i : DescIx) (l : Life) (p' : Port) :
    (s.setLife i l).online p' = s.online p' := rfl
@[simp] theorem State.byteAt_setLife (s : State) (i : DescIx) (l : Life) (n' : Nat) :
    (s.setLife i l).byteAt n' = s.byteAt n' := rfl
@[simp] theorem State.written_setLife (s : State) (i : DescIx) (l : Life) (w' : MemIx) :
    (s.setLife i l).written w' = s.written w' := rfl
@[simp] theorem State.upset_setLife (s : State) (i : DescIx) (l : Life) (w' : MemIx) :
    (s.setLife i l).upset w' = s.upset w' := rfl
@[simp] theorem State.stuck_setLife (s : State) (i : DescIx) (l : Life) (w' : MemIx) :
    (s.setLife i l).stuck w' = s.stuck w' := rfl
@[simp] theorem State.stamp_setLife (s : State) (i : DescIx) (l : Life) : (s.setLife i l).stamp = s.stamp := rfl

@[simp] theorem State.hpi_setBlock (s : State) (b : BlockIx) (x : BlockRec) (p' : Port) :
    (s.setBlock b x).hpi p' = s.hpi p' := rfl
@[simp] theorem State.desc_setBlock (s : State) (b : BlockIx) (x : BlockRec) (j : DescIx) :
    (s.setBlock b x).desc j = s.desc j := rfl
@[simp] theorem State.chan_setBlock (s : State) (b : BlockIx) (x : BlockRec) (d' : ChanIx) :
    (s.setBlock b x).chan d' = s.chan d' := rfl
@[simp] theorem State.online_setBlock (s : State) (b : BlockIx) (x : BlockRec) (p' : Port) :
    (s.setBlock b x).online p' = s.online p' := rfl
@[simp] theorem State.byteAt_setBlock (s : State) (b : BlockIx) (x : BlockRec) (n' : Nat) :
    (s.setBlock b x).byteAt n' = s.byteAt n' := rfl
@[simp] theorem State.written_setBlock (s : State) (b : BlockIx) (x : BlockRec) (w' : MemIx) :
    (s.setBlock b x).written w' = s.written w' := rfl
@[simp] theorem State.upset_setBlock (s : State) (b : BlockIx) (x : BlockRec) (w' : MemIx) :
    (s.setBlock b x).upset w' = s.upset w' := rfl
@[simp] theorem State.stuck_setBlock (s : State) (b : BlockIx) (x : BlockRec) (w' : MemIx) :
    (s.setBlock b x).stuck w' = s.stuck w' := rfl
@[simp] theorem State.stamp_setBlock (s : State) (b : BlockIx) (x : BlockRec) : (s.setBlock b x).stamp = s.stamp := rfl

@[simp] theorem State.hpi_setChan (s : State) (c : ChanIx) (x : Chan) (p' : Port) : (s.setChan c x).hpi p' = s.hpi p' := rfl
@[simp] theorem State.desc_setChan (s : State) (c : ChanIx) (x : Chan) (j : DescIx) :
    (s.setChan c x).desc j = s.desc j := rfl
@[simp] theorem State.block_setChan (s : State) (c : ChanIx) (x : Chan) (k' : BlockIx) :
    (s.setChan c x).block k' = s.block k' := rfl
@[simp] theorem State.online_setChan (s : State) (c : ChanIx) (x : Chan) (p' : Port) :
    (s.setChan c x).online p' = s.online p' := rfl
@[simp] theorem State.byteAt_setChan (s : State) (c : ChanIx) (x : Chan) (n' : Nat) :
    (s.setChan c x).byteAt n' = s.byteAt n' := rfl
@[simp] theorem State.written_setChan (s : State) (c : ChanIx) (x : Chan) (w' : MemIx) :
    (s.setChan c x).written w' = s.written w' := rfl
@[simp] theorem State.upset_setChan (s : State) (c : ChanIx) (x : Chan) (w' : MemIx) :
    (s.setChan c x).upset w' = s.upset w' := rfl
@[simp] theorem State.stuck_setChan (s : State) (c : ChanIx) (x : Chan) (w' : MemIx) :
    (s.setChan c x).stuck w' = s.stuck w' := rfl
@[simp] theorem State.stamp_setChan (s : State) (c : ChanIx) (x : Chan) : (s.setChan c x).stamp = s.stamp := rfl

@[simp] theorem State.hpi_setQuota (s : State) (p : Port) (n : Nat) (p' : Port) : (s.setQuota p n).hpi p' = s.hpi p' := rfl
@[simp] theorem State.desc_setQuota (s : State) (p : Port) (n : Nat) (j : DescIx) :
    (s.setQuota p n).desc j = s.desc j := rfl
@[simp] theorem State.block_setQuota (s : State) (p : Port) (n : Nat) (k' : BlockIx) :
    (s.setQuota p n).block k' = s.block k' := rfl
@[simp] theorem State.chan_setQuota (s : State) (p : Port) (n : Nat) (d' : ChanIx) :
    (s.setQuota p n).chan d' = s.chan d' := rfl
@[simp] theorem State.online_setQuota (s : State) (p : Port) (n : Nat) (p' : Port) :
    (s.setQuota p n).online p' = s.online p' := rfl
@[simp] theorem State.byteAt_setQuota (s : State) (p : Port) (n : Nat) (n' : Nat) :
    (s.setQuota p n).byteAt n' = s.byteAt n' := rfl
@[simp] theorem State.written_setQuota (s : State) (p : Port) (n : Nat) (w' : MemIx) :
    (s.setQuota p n).written w' = s.written w' := rfl
@[simp] theorem State.upset_setQuota (s : State) (p : Port) (n : Nat) (w' : MemIx) :
    (s.setQuota p n).upset w' = s.upset w' := rfl
@[simp] theorem State.stuck_setQuota (s : State) (p : Port) (n : Nat) (w' : MemIx) :
    (s.setQuota p n).stuck w' = s.stuck w' := rfl
@[simp] theorem State.stamp_setQuota (s : State) (p : Port) (n : Nat) : (s.setQuota p n).stamp = s.stamp := rfl

@[simp] theorem State.desc_setSlot (s : State) (p : Port) (k : Fin 8) (x : Option Word) (j : DescIx) :
    (s.setSlot p k x).desc j = s.desc j := rfl
@[simp] theorem State.block_setSlot (s : State) (p : Port) (k : Fin 8) (x : Option Word) (k' : BlockIx) :
    (s.setSlot p k x).block k' = s.block k' := rfl
@[simp] theorem State.chan_setSlot (s : State) (p : Port) (k : Fin 8) (x : Option Word) (d' : ChanIx) :
    (s.setSlot p k x).chan d' = s.chan d' := rfl
@[simp] theorem State.byteAt_setSlot (s : State) (p : Port) (k : Fin 8) (x : Option Word) (n' : Nat) :
    (s.setSlot p k x).byteAt n' = s.byteAt n' := rfl
@[simp] theorem State.written_setSlot (s : State) (p : Port) (k : Fin 8) (x : Option Word) (w' : MemIx) :
    (s.setSlot p k x).written w' = s.written w' := rfl
@[simp] theorem State.upset_setSlot (s : State) (p : Port) (k : Fin 8) (x : Option Word) (w' : MemIx) :
    (s.setSlot p k x).upset w' = s.upset w' := rfl
@[simp] theorem State.stuck_setSlot (s : State) (p : Port) (k : Fin 8) (x : Option Word) (w' : MemIx) :
    (s.setSlot p k x).stuck w' = s.stuck w' := rfl
@[simp] theorem State.stamp_setSlot (s : State) (p : Port) (k : Fin 8) (x : Option Word) :
    (s.setSlot p k x).stamp = s.stamp := rfl

@[simp] theorem State.desc_driveData (s : State) (p : Port) (w : Word) (j : DescIx) :
    (s.driveData p w).desc j = s.desc j := rfl
@[simp] theorem State.block_driveData (s : State) (p : Port) (w : Word) (k' : BlockIx) :
    (s.driveData p w).block k' = s.block k' := rfl
@[simp] theorem State.chan_driveData (s : State) (p : Port) (w : Word) (d' : ChanIx) :
    (s.driveData p w).chan d' = s.chan d' := rfl
@[simp] theorem State.byteAt_driveData (s : State) (p : Port) (w : Word) (n' : Nat) :
    (s.driveData p w).byteAt n' = s.byteAt n' := rfl
@[simp] theorem State.written_driveData (s : State) (p : Port) (w : Word) (w' : MemIx) :
    (s.driveData p w).written w' = s.written w' := rfl
@[simp] theorem State.upset_driveData (s : State) (p : Port) (w : Word) (w' : MemIx) :
    (s.driveData p w).upset w' = s.upset w' := rfl
@[simp] theorem State.stuck_driveData (s : State) (p : Port) (w : Word) (w' : MemIx) :
    (s.driveData p w).stuck w' = s.stuck w' := rfl
@[simp] theorem State.stamp_driveData (s : State) (p : Port) (w : Word) : (s.driveData p w).stamp = s.stamp := rfl

@[simp] theorem State.desc_writeRecord (s : State) (p : Port) (r : EventRecord) (j : DescIx) :
    (s.writeRecord p r).desc j = s.desc j := rfl
@[simp] theorem State.block_writeRecord (s : State) (p : Port) (r : EventRecord) (k' : BlockIx) :
    (s.writeRecord p r).block k' = s.block k' := rfl
@[simp] theorem State.chan_writeRecord (s : State) (p : Port) (r : EventRecord) (d' : ChanIx) :
    (s.writeRecord p r).chan d' = s.chan d' := rfl
@[simp] theorem State.byteAt_writeRecord (s : State) (p : Port) (r : EventRecord) (n' : Nat) :
    (s.writeRecord p r).byteAt n' = s.byteAt n' := rfl
@[simp] theorem State.written_writeRecord (s : State) (p : Port) (r : EventRecord) (w' : MemIx) :
    (s.writeRecord p r).written w' = s.written w' := rfl
@[simp] theorem State.upset_writeRecord (s : State) (p : Port) (r : EventRecord) (w' : MemIx) :
    (s.writeRecord p r).upset w' = s.upset w' := rfl
@[simp] theorem State.stuck_writeRecord (s : State) (p : Port) (r : EventRecord) (w' : MemIx) :
    (s.writeRecord p r).stuck w' = s.stuck w' := rfl
@[simp] theorem State.stamp_writeRecord (s : State) (p : Port) (r : EventRecord) :
    (s.writeRecord p r).stamp = s.stamp := rfl

@[simp] theorem State.desc_leaveOutstanding (s : State) (p : Port) (tag : Tag) (x : EntryState) (j : DescIx) :
    (s.leaveOutstanding p tag x).desc j = s.desc j := rfl
@[simp] theorem State.block_leaveOutstanding (s : State) (p : Port) (tag : Tag) (x : EntryState) (k' : BlockIx) :
    (s.leaveOutstanding p tag x).block k' = s.block k' := rfl
@[simp] theorem State.chan_leaveOutstanding (s : State) (p : Port) (tag : Tag) (x : EntryState) (d' : ChanIx) :
    (s.leaveOutstanding p tag x).chan d' = s.chan d' := rfl
@[simp] theorem State.byteAt_leaveOutstanding (s : State) (p : Port) (tag : Tag) (x : EntryState) (n' : Nat) :
    (s.leaveOutstanding p tag x).byteAt n' = s.byteAt n' := rfl
@[simp] theorem State.written_leaveOutstanding (s : State) (p : Port) (tag : Tag) (x : EntryState) (w' : MemIx) :
    (s.leaveOutstanding p tag x).written w' = s.written w' := rfl
@[simp] theorem State.upset_leaveOutstanding (s : State) (p : Port) (tag : Tag) (x : EntryState) (w' : MemIx) :
    (s.leaveOutstanding p tag x).upset w' = s.upset w' := rfl
@[simp] theorem State.stuck_leaveOutstanding (s : State) (p : Port) (tag : Tag) (x : EntryState) (w' : MemIx) :
    (s.leaveOutstanding p tag x).stuck w' = s.stuck w' := rfl
@[simp] theorem State.stamp_leaveOutstanding (s : State) (p : Port) (tag : Tag) (x : EntryState) :
    (s.leaveOutstanding p tag x).stamp = s.stamp := rfl

@[simp] theorem State.hpi_drawn (s : State) (p' : Port) : (s.drawn).hpi p' = s.hpi p' := rfl
@[simp] theorem State.desc_drawn (s : State) (j : DescIx) : (s.drawn).desc j = s.desc j := rfl
@[simp] theorem State.block_drawn (s : State) (k' : BlockIx) : (s.drawn).block k' = s.block k' := rfl
@[simp] theorem State.chan_drawn (s : State) (d' : ChanIx) : (s.drawn).chan d' = s.chan d' := rfl
@[simp] theorem State.online_drawn (s : State) (p' : Port) : (s.drawn).online p' = s.online p' := rfl
@[simp] theorem State.byteAt_drawn (s : State) (n' : Nat) : (s.drawn).byteAt n' = s.byteAt n' := rfl
@[simp] theorem State.written_drawn (s : State) (w' : MemIx) : (s.drawn).written w' = s.written w' := rfl
@[simp] theorem State.upset_drawn (s : State) (w' : MemIx) : (s.drawn).upset w' = s.upset w' := rfl
@[simp] theorem State.stuck_drawn (s : State) (w' : MemIx) : (s.drawn).stuck w' = s.stuck w' := rfl
@[simp] theorem State.stamp_drawn (s : State) : (s.drawn).stamp = s.stamp := rfl

@[simp] theorem State.hpi_callReexam (s : State) (p' : Port) : (s.callReexam).hpi p' = s.hpi p' := rfl
@[simp] theorem State.desc_callReexam (s : State) (j : DescIx) : (s.callReexam).desc j = s.desc j := rfl
@[simp] theorem State.block_callReexam (s : State) (k' : BlockIx) : (s.callReexam).block k' = s.block k' := rfl
@[simp] theorem State.chan_callReexam (s : State) (d' : ChanIx) : (s.callReexam).chan d' = s.chan d' := rfl
@[simp] theorem State.online_callReexam (s : State) (p' : Port) : (s.callReexam).online p' = s.online p' := rfl
@[simp] theorem State.byteAt_callReexam (s : State) (n' : Nat) : (s.callReexam).byteAt n' = s.byteAt n' := rfl
@[simp] theorem State.written_callReexam (s : State) (w' : MemIx) : (s.callReexam).written w' = s.written w' := rfl
@[simp] theorem State.upset_callReexam (s : State) (w' : MemIx) : (s.callReexam).upset w' = s.upset w' := rfl
@[simp] theorem State.stuck_callReexam (s : State) (w' : MemIx) : (s.callReexam).stuck w' = s.stuck w' := rfl
@[simp] theorem State.stamp_callReexam (s : State) : (s.callReexam).stamp = s.stamp := rfl

@[simp] theorem State.hpi_zeroMemory (s : State) (p' : Port) : (s.zeroMemory).hpi p' = s.hpi p' := rfl
@[simp] theorem State.desc_zeroMemory (s : State) (j : DescIx) : (s.zeroMemory).desc j = s.desc j := rfl
@[simp] theorem State.block_zeroMemory (s : State) (k' : BlockIx) : (s.zeroMemory).block k' = s.block k' := rfl
@[simp] theorem State.chan_zeroMemory (s : State) (d' : ChanIx) : (s.zeroMemory).chan d' = s.chan d' := rfl
@[simp] theorem State.online_zeroMemory (s : State) (p' : Port) : (s.zeroMemory).online p' = s.online p' := rfl
@[simp] theorem State.stuck_zeroMemory (s : State) (w' : MemIx) : (s.zeroMemory).stuck w' = s.stuck w' := rfl
@[simp] theorem State.stamp_zeroMemory (s : State) : (s.zeroMemory).stamp = s.stamp := rfl

@[simp] theorem State.hpi_zeroBlock (s : State) (b : BlockIx) (p' : Port) : (s.zeroBlock b).hpi p' = s.hpi p' := rfl
@[simp] theorem State.desc_zeroBlock (s : State) (b : BlockIx) (j : DescIx) : (s.zeroBlock b).desc j = s.desc j := rfl
@[simp] theorem State.block_zeroBlock (s : State) (b : BlockIx) (k' : BlockIx) :
    (s.zeroBlock b).block k' = s.block k' := rfl
@[simp] theorem State.chan_zeroBlock (s : State) (b : BlockIx) (d' : ChanIx) : (s.zeroBlock b).chan d' = s.chan d' := rfl
@[simp] theorem State.online_zeroBlock (s : State) (b : BlockIx) (p' : Port) :
    (s.zeroBlock b).online p' = s.online p' := rfl
@[simp] theorem State.stuck_zeroBlock (s : State) (b : BlockIx) (w' : MemIx) : (s.zeroBlock b).stuck w' = s.stuck w' := rfl
@[simp] theorem State.stamp_zeroBlock (s : State) (b : BlockIx) : (s.zeroBlock b).stamp = s.stamp := rfl

@[simp] theorem State.hpi_storeWord (s : State) (w : MemIx) (d : Word) (p' : Port) :
    (s.storeWord w d).hpi p' = s.hpi p' := rfl
@[simp] theorem State.desc_storeWord (s : State) (w : MemIx) (d : Word) (j : DescIx) :
    (s.storeWord w d).desc j = s.desc j := rfl
@[simp] theorem State.block_storeWord (s : State) (w : MemIx) (d : Word) (k' : BlockIx) :
    (s.storeWord w d).block k' = s.block k' := rfl
@[simp] theorem State.chan_storeWord (s : State) (w : MemIx) (d : Word) (d' : ChanIx) :
    (s.storeWord w d).chan d' = s.chan d' := rfl
@[simp] theorem State.online_storeWord (s : State) (w : MemIx) (d : Word) (p' : Port) :
    (s.storeWord w d).online p' = s.online p' := rfl
@[simp] theorem State.stuck_storeWord (s : State) (w : MemIx) (d : Word) (w' : MemIx) :
    (s.storeWord w d).stuck w' = s.stuck w' := rfl
@[simp] theorem State.stamp_storeWord (s : State) (w : MemIx) (d : Word) : (s.storeWord w d).stamp = s.stamp := rfl
@[simp] theorem State.hpi_flipBits (s : State) (w : MemIx) (m : StoredBits) (p' : Port) :
    (s.flipBits w m).hpi p' = s.hpi p' := rfl
@[simp] theorem State.desc_flipBits (s : State) (w : MemIx) (m : StoredBits) (j : DescIx) :
    (s.flipBits w m).desc j = s.desc j := rfl
@[simp] theorem State.block_flipBits (s : State) (w : MemIx) (m : StoredBits) (k' : BlockIx) :
    (s.flipBits w m).block k' = s.block k' := rfl
@[simp] theorem State.chan_flipBits (s : State) (w : MemIx) (m : StoredBits) (d' : ChanIx) :
    (s.flipBits w m).chan d' = s.chan d' := rfl
@[simp] theorem State.online_flipBits (s : State) (w : MemIx) (m : StoredBits) (p' : Port) :
    (s.flipBits w m).online p' = s.online p' := rfl
@[simp] theorem State.stuck_flipBits (s : State) (w : MemIx) (m : StoredBits) (w' : MemIx) :
    (s.flipBits w m).stuck w' = s.stuck w' := rfl
@[simp] theorem State.stamp_flipBits (s : State) (w : MemIx) (m : StoredBits) : (s.flipBits w m).stamp = s.stamp := rfl
@[simp] theorem State.written_flipBits (s : State) (w : MemIx) (m : StoredBits) (w' : MemIx) :
    (s.flipBits w m).written w' = s.written w' := rfl

end Sys2Proof.Machine
end

