-- ==== Sys2Proof/Laws/Ops.lean ====
section
/-!
SUPPORT. For each shared operation, what it can do: the cases of a completion and of a notice, the fields each operation
can change, and the records it leaves alone.
-/

namespace Sys2Proof.Machine

/-! ### Ordered checks -/

/-- Every check passes exactly when there is no refusal. -/
theorem firstFail_eq_none_iff (l : List (Bool × ResultCode)) : firstFail l = none ↔ ∀ c ∈ l, c.1 = false := by
  induction l with
  | nil => simp [firstFail]
  | cons c rest ih =>
    obtain ⟨b, r⟩ := c
    cases b <;> simp [firstFail, ih]

/-- A refusal is that of a check that fails, every check before it passing. -/
theorem firstFail_eq_some (l : List (Bool × ResultCode)) (r : ResultCode) (h : firstFail l = some r) :
    ∃ before after, l = before ++ (true, r) :: after ∧ ∀ c ∈ before, c.1 = false := by
  induction l with
  | nil => simp [firstFail] at h
  | cons c rest ih =>
    obtain ⟨b, r'⟩ := c
    cases b with
    | true =>
      obtain rfl : r' = r := by simpa [firstFail] using h
      exact ⟨[], rest, rfl, by simp⟩
    | false =>
      obtain ⟨before, after, rfl, hb⟩ := ih (by simpa [firstFail] using h)
      refine ⟨(false, r') :: before, after, rfl, fun c hc => ?_⟩
      rcases List.mem_cons.1 hc with rfl | hc
      · rfl
      · exact hb c hc

/-! ### Completions -/

/-- A completion of a request that is in the table. -/
theorem State.complete_of_find (s : State) (p : Port) (tag : Tag) (r : ResultCode) (v : Vals) {e : Entry}
    (h : (s.hpi p).table.find? (fun e => e.req.tag == tag) = some e) :
    s.complete p tag r v = s.setHpi p { s.hpi p with
      table := (s.hpi p).table.eraseP (fun e => e.req.tag == tag)
      queue := (s.hpi p).queue ++ [.completion r tag e.req.kind v s.stamp] } := by
  simp only [State.complete, h]

/-- A completion of a request that is not in the table writes nothing (R148). -/
theorem State.complete_of_not_find (s : State) (p : Port) (tag : Tag) (r : ResultCode) (v : Vals)
    (h : (s.hpi p).table.find? (fun e => e.req.tag == tag) = none) : s.complete p tag r v = s := by
  simp only [State.complete, h]

/-- A completion changes one port's request table and event queue, and nothing else. -/
theorem State.complete_frame (s : State) (p : Port) (tag : Tag) (r : ResultCode) (v : Vals) :
    ∃ t q, s.complete p tag r v = s.setHpi p { s.hpi p with table := t, queue := q } := by
  cases h : (s.hpi p).table.find? (fun e => e.req.tag == tag) with
  | none =>
    refine ⟨(s.hpi p).table, (s.hpi p).queue, ?_⟩
    rw [State.complete_of_not_find _ _ _ _ _ h]
    exact (State.setHpi_self s p).symm
  | some e => exact ⟨_, _, State.complete_of_find _ _ _ _ _ h⟩

/-- The entry a tag finds, where the tags of the table differ. -/
theorem find_tag_of_mem {l : List Entry} (hn : (l.map (fun e => e.req.tag)).Nodup) {e : Entry} (he : e ∈ l) :
    l.find? (fun x => x.req.tag == e.req.tag) = some e := by
  induction l with
  | nil => simp at he
  | cons x rest ih =>
    simp only [List.map_cons, List.nodup_cons, List.mem_map, not_exists, not_and] at hn
    rcases List.mem_cons.1 he with rfl | he
    · simp
    · have hx : x.req.tag ≠ e.req.tag := fun h => hn.1 e he h.symm
      rw [List.find?_cons_of_neg (by simpa using hx)]
      exact ih hn.2 he

/-- Erasing the first entry of a tag drops every entry of that tag, where the tags differ. -/
theorem eraseP_tag_eq_filter {l : List Entry} (hn : (l.map (fun e => e.req.tag)).Nodup) (tag : Tag) :
    l.eraseP (fun e => e.req.tag == tag) = l.filter (fun e => decide (e.req.tag ≠ tag)) := by
  induction l with
  | nil => rfl
  | cons x rest ih =>
    simp only [List.map_cons, List.nodup_cons, List.mem_map, not_exists, not_and] at hn
    by_cases hx : x.req.tag = tag
    · subst hx
      rw [List.eraseP_cons_of_pos (by simp), List.filter_cons_of_neg (by simp), List.filter_eq_self.2]
      intro e he
      simpa using hn.1 e he
    · rw [List.eraseP_cons_of_neg (by simpa using hx), List.filter_cons_of_pos (by simpa using hx), ih hn.2]

/-! ### Notices -/

/-- A notice to a port that is not ONLINE is discarded (R152). -/
theorem State.notice_offline (s : State) (p : Port) (k : NoticeKind) (v : Vals) (h : s.online p = false) :
    s.notice p k v = s := by simp [State.notice, h]

/-- A notice that finds an empty summary and a free entry is written (R152). -/
theorem State.notice_written (s : State) (p : Port) (k : NoticeKind) (v : Vals) (h : s.online p = true)
    (he : (s.hpi p).summaryEmpty = true) (hr : (s.hpi p).occupied + (s.hpi p).outstanding < 32) :
    s.notice p k v = s.writeRecord p (.notice k v s.stamp) := by simp [State.notice, h, he, hr]

/-- A notice that finds a non-empty summary or no free entry is folded (R152). -/
theorem State.notice_folded (s : State) (p : Port) (k : NoticeKind) (v : Vals) (h : s.online p = true)
    (hf : ¬((s.hpi p).summaryEmpty = true ∧ (s.hpi p).occupied + (s.hpi p).outstanding < 32)) :
    s.notice p k v = s.setHpi p ((s.hpi p).fold k v.channel) := by
  simp only [State.notice, h, if_true, Bool.and_eq_true, decide_eq_true_eq, if_neg hf]

/-- A notice changes one port's event queue and notice summary, and nothing else. -/
theorem State.notice_frame (s : State) (p : Port) (k : NoticeKind) (v : Vals) :
    ∃ q ks cs, s.notice p k v = s.setHpi p { s.hpi p with queue := q, sumKinds := ks, sumChannels := cs } := by
  by_cases ho : s.online p = true
  · by_cases hf : (s.hpi p).summaryEmpty = true ∧ (s.hpi p).occupied + (s.hpi p).outstanding < 32
    · exact ⟨_, (s.hpi p).sumKinds, (s.hpi p).sumChannels, s.notice_written p k v ho hf.1 hf.2⟩
    · exact ⟨(s.hpi p).queue, _, _, s.notice_folded p k v ho hf⟩
  · refine ⟨(s.hpi p).queue, (s.hpi p).sumKinds, (s.hpi p).sumChannels, ?_⟩
    rw [s.notice_offline p k v (by simpa using ho)]
    exact (State.setHpi_self s p).symm

/-- Completing several requests changes the ports alone. -/
theorem State.completeAll_frame (ws : List Wait) (s : State) (p : Port) (r : ResultCode) (v : Vals) :
    ∃ x, s.completeAll p ws r v = { s with ports := x } := by
  induction ws generalizing s with
  | nil => exact ⟨s.ports, rfl⟩
  | cons w rest ih =>
    obtain ⟨t, q, h⟩ := s.complete_frame p w.tag r v
    obtain ⟨x, hx⟩ := ih (s.complete p w.tag r v)
    refine ⟨x, ?_⟩
    change (s.complete p w.tag r v).completeAll p rest r v = _
    rw [hx, h]
    rfl

/-- Completions of one port leave every other port's HPI alone. -/
theorem State.complete_hpi_ne (s : State) {p q : Port} (tag : Tag) (r : ResultCode) (v : Vals) (h : p ≠ q) :
    (s.complete p tag r v).hpi q = s.hpi q := by
  obtain ⟨t, u, e⟩ := s.complete_frame p tag r v
  rw [e, State.hpi_setHpi_ne _ _ h]

/-- Notices of one port leave every other port's HPI alone. -/
theorem State.notice_hpi_ne (s : State) {p q : Port} (k : NoticeKind) (v : Vals) (h : p ≠ q) :
    (s.notice p k v).hpi q = s.hpi q := by
  obtain ⟨a, b, c, e⟩ := s.notice_frame p k v
  rw [e, State.hpi_setHpi_ne _ _ h]

/-! ### Presentation -/

/-- A request of the kind presented is settled. -/
theorem State.present_eq (s : State) (k : ReqKind) (p : Port) (f : Request → Port → State → State) (r : Request)
    (ho : s.online p = true) (hr : s.nextPending p = some r) (hk : r.kind = k) : s.present k p f = f r p s := by
  simp [State.present, hr, ho, hk]

/-- Anything else changes nothing. -/
theorem State.present_cases (s : State) (k : ReqKind) (p : Port) (f : Request → Port → State → State) :
    s.present k p f = s ∨ ∃ r, s.online p = true ∧ s.nextPending p = some r ∧ r.kind = k ∧ s.present k p f = f r p s := by
  unfold State.present
  split
  · exact .inl rfl
  · split_ifs with h
    · simp only [Bool.and_eq_true, beq_iff_eq] at h
      exact .inr ⟨_, h.1, ‹_›, h.2, rfl⟩
    · exact .inl rfl

/-! ### Freeing (R12, R21) -/

/-- Handing over blocks changes block records and the two lists, and nothing else. -/
theorem State.handOverAll_frame (bs : List BlockIx) (s : State) :
    ∃ x f r, bs.foldl State.handOver s = { s with blocks := x, freeList := f, retired := r } := by
  induction bs generalizing s with
  | nil => exact ⟨s.blocks, s.freeList, s.retired, rfl⟩
  | cons b rest ih =>
    obtain ⟨x, f, r, h⟩ := ih (s.handOver b)
    refine ⟨x, f, r, ?_⟩
    rw [List.foldl_cons, h]
    unfold State.handOver
    split_ifs <;> rfl

/-- Becoming FREE changes the descriptor, the pool's block records and lists, and the re-examinations called for. -/
theorem State.freeDesc_frame (s : State) (i : DescIx) :
    ∃ d x f r n, s.freeDesc i = { s with descs := d, blocks := x, freeList := f, retired := r, reexamsDue := n } := by
  unfold State.freeDesc
  split
  · exact ⟨s.descs, s.blocks, s.freeList, s.retired, s.reexamsDue, rfl⟩
  · rename_i b _
    obtain ⟨x, f, r, h⟩ := State.handOverAll_frame b.blocks s
    exact ⟨_, x, f, r, _, by rw [h]; rfl⟩

/-- A descriptor that becomes FREE has its generation raised by one and no other field (R2, R12). -/
theorem State.freeDesc_desc_same (s : State) (i : DescIx) (h : (s.desc i).buf ≠ none) :
    (s.freeDesc i).desc i = ⟨(s.desc i).generation + 1#8, .free⟩ := by
  unfold State.freeDesc
  split
  · exact absurd ‹_› h
  · exact State.desc_setDesc_same _ _ _

/-- No other descriptor is touched. -/
theorem State.freeDesc_desc_ne (s : State) {i j : DescIx} (h : i ≠ j) : (s.freeDesc i).desc j = s.desc j := by
  unfold State.freeDesc
  split
  · rfl
  · rename_i b _
    obtain ⟨x, f, r, e⟩ := State.handOverAll_frame b.blocks s
    change (State.setDesc _ i _).desc j = _
    rw [State.desc_setDesc_ne _ _ h, e]
    rfl

/-! ### Allocation (R13, R28) -/

/-- Marking blocks changes block records alone. -/
theorem markBlocks_frame (bs : List BlockIx) (y : BlockRec) (s : State) :
    ∃ x, bs.foldl (fun s b => s.setBlock b y) s = { s with blocks := x } := by
  induction bs generalizing s with
  | nil => exact ⟨s.blocks, rfl⟩
  | cons b rest ih =>
    obtain ⟨x, h⟩ := ih (s.setBlock b y)
    exact ⟨x, by rw [List.foldl_cons, h]; rfl⟩

/-- An allocation takes the first blocks of the free list into the descriptor and changes nothing but block records. -/
theorem State.allocTo_frame (s : State) (p : Port) (n : Nat) (i : DescIx) :
    ∃ x, s.allocTo p n i =
      { s.setLife i (.filling ⟨p, s.freeList.take n, false⟩) with blocks := x, freeList := s.freeList.drop n } := by
  obtain ⟨x, h⟩ := markBlocks_frame (s.freeList.take n) ⟨.inUse, false⟩ { s with freeList := s.freeList.drop n }
  refine ⟨x, ?_⟩
  simp only [State.allocTo]
  rw [h]
  rfl

/-- A re-examination changes ports, descriptors, block records, the free list and the wait list alone. -/
theorem State.serveHeads_frame (n : Nat) (s : State) :
    ∃ x d b f w, State.serveHeads n s =
      { s with ports := x, descs := d, blocks := b, freeList := f, allocWaits := w } := by
  induction n generalizing s with
  | zero => exact ⟨s.ports, s.descs, s.blocks, s.freeList, s.allocWaits, rfl⟩
  | succ n ih =>
    unfold State.serveHeads
    split
    · exact ⟨s.ports, s.descs, s.blocks, s.freeList, s.allocWaits, rfl⟩
    · rename_i e rest _
      split
      · exact ⟨s.ports, s.descs, s.blocks, s.freeList, s.allocWaits, rfl⟩
      · rename_i i _
        obtain ⟨x, d, b, f, w, h⟩ := ih (State.satisfy { s with allocWaits := rest } e.port e.tag e.count i)
        refine ⟨x, d, b, f, w, ?_⟩
        rw [h]
        unfold State.satisfy
        obtain ⟨t, q, hc⟩ := (State.allocTo { s with allocWaits := rest } e.port e.count i).complete_frame e.port e.tag
          .done { blockCount := e.count, v0 := State.handle { s with allocWaits := rest } i }
        obtain ⟨y, ha⟩ := State.allocTo_frame { s with allocWaits := rest } e.port e.count i
        rw [hc, ha]
        rfl

/-- The descriptor an allocation chooses is FREE, and every lower one is not (R13). -/
theorem State.lowestFree_spec (s : State) (i : DescIx) (h : s.lowestFree = some i) :
    (s.desc i).state = .free ∧ ∀ j < i, (s.desc j).state ≠ .free := by
  obtain ⟨hi, before, after, hl, hb⟩ := List.find?_eq_some_iff_append.1 h
  refine ⟨by simpa using hi, fun j hj hf => ?_⟩
  have hs : (before ++ i :: after).Pairwise (· < ·) := hl ▸ List.pairwise_lt_finRange 128
  have hm : j ∈ before ++ i :: after := hl ▸ List.mem_finRange j
  rcases List.mem_append.1 hm with hm | hm
  · simpa [hf] using hb j hm
  · rcases List.mem_cons.1 hm with rfl | hm
    · exact absurd hj (lt_irrefl _)
    · exact absurd hj (not_lt_of_gt ((List.pairwise_cons.1 (List.pairwise_append.1 hs).2.1).1 j hm))

/-! ### Channels (R56, R73) -/

/-- Arrival at the return side changes ports, channels and descriptors alone. -/
theorem State.arrive_frame (s : State) (c : ChanIx) (i : DescIx) (b : Buf) (t : Traffic) (r : Came) :
    ∃ x y z, s.arrive c i b t r = { s with ports := x, chans := y, descs := z } := by
  unfold State.arrive
  split
  · exact ⟨s.ports, s.chans, s.descs, rfl⟩
  · rename_i a _
    split
    · rename_i w ws _
      obtain ⟨u, q, h⟩ := ((s.setChan c (.active { a with collectWaits := ws })).setLife i
        (.collected b t r)).complete_frame a.params.producer w.tag .done (s.collectVals i b t r)
      exact ⟨_, _, _, by rw [h]; rfl⟩
    · exact ⟨s.ports, _, _, rfl⟩

/-- RETURN_ARRIVAL changes the ports alone. -/
theorem State.noticeReturns_frame (s : State) (c : ChanIx) (e : Bool) :
    ∃ x, s.noticeReturns c e = { s with ports := x } := by
  unfold State.noticeReturns
  split
  · exact ⟨s.ports, rfl⟩
  · rename_i a _
    split_ifs
    · obtain ⟨u, v, w, h⟩ := s.notice_frame a.params.producer .returnArrival { channel := chanField c }
      exact ⟨_, by rw [h]; rfl⟩
    · exact ⟨s.ports, rfl⟩

/-- Unbinding changes ports and channels alone. -/
theorem State.unbind_frame (s : State) (c : ChanIx) : ∃ x y, s.unbind c = { s with ports := x, chans := y } := by
  unfold State.unbind
  split
  · exact ⟨s.ports, s.chans, rfl⟩
  · rename_i a _
    obtain ⟨x, h⟩ := s.completeAll_frame a.collectWaits a.params.producer .closed { channel := chanField c }
    simp only [h]
    obtain ⟨q1, k1, c1, h1⟩ := (State.setChan { s with ports := x } c .unbound).notice_frame a.params.producer
      .channelUnbound { channel := chanField c }
    rw [h1]
    obtain ⟨q2, k2, c2, h2⟩ := ((State.setChan { s with ports := x } c .unbound).setHpi a.params.producer
      { (State.setChan { s with ports := x } c .unbound).hpi a.params.producer with
        queue := q1, sumKinds := k1, sumChannels := c1 }).notice_frame a.params.consumer .channelUnbound
          { channel := chanField c }
    exact ⟨_, _, by rw [h2]; rfl⟩

/-- The last part of an event changes ports and channels alone. -/
theorem State.unbindIfDrained_frame (s : State) (c : ChanIx) :
    ∃ x y, s.unbindIfDrained c = { s with ports := x, chans := y } := by
  unfold State.unbindIfDrained
  split_ifs
  · exact s.unbind_frame c
  · exact ⟨s.ports, s.chans, rfl⟩

/-- A channel that unbinds is UNBOUND, and no other channel is touched (R56). -/
theorem State.unbind_chan (s : State) (c d : ChanIx) (h : (s.chan c).active? ≠ none) :
    (s.unbind c).chan d = if c = d then .unbound else s.chan d := by
  unfold State.unbind
  split
  · exact absurd ‹_› h
  · rename_i a _
    obtain ⟨x, hx⟩ := s.completeAll_frame a.collectWaits a.params.producer .closed { channel := chanField c }
    simp only [hx]
    obtain ⟨q1, k1, c1, h1⟩ := (State.setChan { s with ports := x } c .unbound).notice_frame a.params.producer
      .channelUnbound { channel := chanField c }
    rw [h1]
    obtain ⟨q2, k2, c2, h2⟩ := ((State.setChan { s with ports := x } c .unbound).setHpi a.params.producer
      { (State.setChan { s with ports := x } c .unbound).hpi a.params.producer with
        queue := q1, sumKinds := k1, sumChannels := c1 }).notice_frame a.params.consumer .channelUnbound
          { channel := chanField c }
    rw [h2]
    exact State.chan_setChan { s with ports := x } c d .unbound

end Sys2Proof.Machine
end

