-- ==== Sys2Proof/Laws/Channels.lean ====
section
/-!
SUPPORT. What the channel operations, a revocation, a reclaim start and the aperture accesses can touch: said once for each,
so that a proof about a command cites the frame and never unfolds the operation.
-/

namespace Sys2Proof.Machine

/-- From `s` to `t` nothing but ports, channels, descriptors, block records, the two lists of blocks and the re-examinations
called for has changed: what traffic on channels can touch. -/
def State.trafficOnly (s t : State) : Prop :=
  t = { s with
    ports := t.ports, chans := t.chans, descs := t.descs, blocks := t.blocks, freeList := t.freeList
    retired := t.retired, reexamsDue := t.reexamsDue }

theorem State.trafficOnly_refl (s : State) : s.trafficOnly s := rfl

theorem State.trafficOnly.trans {s t u : State} (h : s.trafficOnly t) (k : t.trafficOnly u) : s.trafficOnly u := by
  cases s; cases t; cases u
  simp only [State.trafficOnly, State.mk.injEq] at h k ⊢
  simp_all

/-- A fold of operations that touch traffic alone touches traffic alone. -/
theorem State.trafficOnly_foldl {α : Type} {f : State → α → State} (hf : ∀ (s : State) (x : α), s.trafficOnly (f s x)) (l : List α)
    (s : State) : s.trafficOnly (l.foldl f s) := by
  induction l generalizing s with
  | nil => exact s.trafficOnly_refl
  | cons x rest ih => exact (hf s x).trans (ih _)

theorem State.trafficOnly_complete (s : State) (p : Port) (tag : Tag) (r : ResultCode) (v : Vals) :
    s.trafficOnly (s.complete p tag r v) := by
  obtain ⟨t, q, h⟩ := s.complete_frame p tag r v
  rw [h]; rfl

theorem State.trafficOnly_notice (s : State) (p : Port) (k : NoticeKind) (v : Vals) : s.trafficOnly (s.notice p k v) := by
  obtain ⟨q, ks, cs, h⟩ := s.notice_frame p k v
  rw [h]; rfl

theorem State.trafficOnly_completeAll (s : State) (p : Port) (ws : List Wait) (r : ResultCode) (v : Vals) :
    s.trafficOnly (s.completeAll p ws r v) := by
  obtain ⟨x, h⟩ := State.completeAll_frame ws s p r v
  rw [h]; rfl

theorem State.trafficOnly_freeDesc (s : State) (i : DescIx) : s.trafficOnly (s.freeDesc i) := by
  obtain ⟨d, x, f, r, n, h⟩ := s.freeDesc_frame i
  rw [h]; rfl

theorem State.trafficOnly_arrive (s : State) (c : ChanIx) (i : DescIx) (b : Buf) (t : Traffic) (r : Came) :
    s.trafficOnly (s.arrive c i b t r) := by
  obtain ⟨x, y, z, h⟩ := s.arrive_frame c i b t r
  rw [h]; rfl

theorem State.trafficOnly_noticeReturns (s : State) (c : ChanIx) (e : Bool) : s.trafficOnly (s.noticeReturns c e) := by
  obtain ⟨x, h⟩ := s.noticeReturns_frame c e
  rw [h]; rfl

theorem State.trafficOnly_unbind (s : State) (c : ChanIx) : s.trafficOnly (s.unbind c) := by
  obtain ⟨x, y, h⟩ := s.unbind_frame c
  rw [h]; rfl

theorem State.trafficOnly_unbindIfDrained (s : State) (c : ChanIx) : s.trafficOnly (s.unbindIfDrained c) := by
  obtain ⟨x, y, h⟩ := s.unbindIfDrained_frame c
  rw [h]; rfl

/-! ### Delivery, return and revocation -/

/-- A delivery to a TAKE changes ports and descriptors alone (R63, R67). -/
theorem State.deliver_frame (s : State) (m : ChanParams) (tag : Tag) (i : DescIx) (b : Buf) (t : Traffic) :
    ∃ x y, s.deliver m tag i b t = { s with ports := x, descs := y } := by
  obtain ⟨u, q, h⟩ := (s.setLife i (.held b t m.consumer (holdTimer m.holdLimit) 0)).complete_frame m.consumer tag .done
    (s.takeVals i b t m.producer)
  exact ⟨_, _, by unfold State.deliver; rw [h]; rfl⟩

theorem State.trafficOnly_comeBack (s : State) (i : DescIx) (b : Buf) (t : Traffic) (r : Came) :
    s.trafficOnly (s.comeBack i b t r) :=
  (s.trafficOnly_arrive _ i b t r).trans (State.trafficOnly_noticeReturns _ _ _)

/-- A revocation touches traffic alone (R92, R93). -/
theorem State.trafficOnly_revoke (s : State) (i : DescIx) (byExpiry : Bool) : s.trafficOnly (s.revoke i byExpiry) := by
  unfold State.revoke
  split
  · refine State.trafficOnly.trans ?_ (State.trafficOnly_unbindIfDrained _ _)
    split_ifs
    · exact (s.trafficOnly_comeBack ..).trans (State.trafficOnly_notice ..)
    · exact (s.trafficOnly_freeDesc i).trans (State.trafficOnly_notice ..)
    · exact s.trafficOnly_comeBack ..
    · exact s.trafficOnly_freeDesc i
  all_goals exact s.trafficOnly_refl

/-! ### Closing -/

theorem State.trafficOnly_setChan (s : State) (c : ChanIx) (x : Chan) : s.trafficOnly (s.setChan c x) := rfl

theorem State.trafficOnly_bounceOne (c : ChanIx) (s : State) (i : DescIx) : s.trafficOnly (State.bounceOne c s i) := by
  unfold State.bounceOne
  split
  · exact s.trafficOnly_arrive ..
  all_goals exact s.trafficOnly_refl

theorem State.trafficOnly_producerClose (s : State) (c : ChanIx) : s.trafficOnly (s.producerClose c) := by
  unfold State.producerClose
  split
  · exact s.trafficOnly_refl
  · exact (State.trafficOnly_setChan _ _ _).trans (State.trafficOnly_completeAll ..)

/-- What a consumer close does touches traffic alone (R53, R54). -/
theorem State.trafficOnly_consumerClose (s : State) (c : ChanIx) : s.trafficOnly (s.consumerClose c) := by
  unfold State.consumerClose
  split
  · exact s.trafficOnly_refl
  · rename_i a _
    have h : s.trafficOnly ((s.setChan c (.active { a with takeWaits := [], forward := [] })).completeAll
        a.params.consumer a.takeWaits .closed { channel := chanField c }) :=
      (s.trafficOnly_setChan c _).trans (State.trafficOnly_completeAll ..)
    generalize (s.setChan c (.active { a with takeWaits := [], forward := [] })).completeAll
        a.params.consumer a.takeWaits .closed { channel := chanField c } = s1 at h ⊢
    have hf := h.trans (State.trafficOnly_foldl State.trafficOnly_freeDesc a.forward s1)
    have hb := h.trans (State.trafficOnly_foldl (State.trafficOnly_bounceOne c) a.forward s1)
    dsimp only
    split
    · split
      · exact hf
      · exact hf.trans (State.trafficOnly_notice ..)
    · split
      · exact hb.trans (State.trafficOnly_noticeReturns ..)
      · exact hf

/-- The close of an end touches traffic alone (R52, R53, R54). -/
theorem State.trafficOnly_closeBy (s : State) (p : Port) (c : ChanIx) : s.trafficOnly (s.closeBy p c) := by
  unfold State.closeBy
  split
  · exact s.trafficOnly_refl
  · rename_i a _
    split
    · exact (s.trafficOnly_setChan c (.active { a with closedProducer := true })).trans
        (State.trafficOnly_producerClose ..)
    · exact (s.trafficOnly_setChan c (.active { a with closedConsumer := true })).trans
        (State.trafficOnly_consumerClose ..)

/-! ### Reclaim -/

theorem State.trafficOnly_freeReturns (s : State) (c : ChanIx) : s.trafficOnly (s.freeReturns c) := by
  unfold State.freeReturns
  split
  · exact s.trafficOnly_refl
  · exact (s.trafficOnly_setChan c _).trans (State.trafficOnly_foldl State.trafficOnly_freeDesc _ _)

/-- Part 6 of a reclaim start touches traffic alone (R165, R166). -/
theorem State.trafficOnly_reclaimChannel (p : Port) (s : State) (c : ChanIx) :
    s.trafficOnly (State.reclaimChannel p s c) := by
  unfold State.reclaimChannel
  split
  · exact s.trafficOnly_refl
  · split_ifs
    · exact (s.trafficOnly_setChan c _).trans (State.trafficOnly_notice ..)
    · exact (s.trafficOnly_setChan c _).trans (State.trafficOnly_complete ..)
    · exact s.trafficOnly_refl
  · rename_i a _
    split
    · extract_lets s1 s2
      have h1 : s.trafficOnly s1 := by
        simp only [s1]
        split
        · exact s.trafficOnly_refl
        · exact s.trafficOnly_closeBy p c
      have h2 : s1.trafficOnly s2 := by
        simp only [s2]
        split
        · exact s1.trafficOnly_freeReturns c
        · exact s1.trafficOnly_refl
      clear_value s1 s2
      have h3 : s2.trafficOnly (if s2.inTransit c == 0 then s2.unbind c
          else s2.notice (a.params.other p) .peerDetached { channel := chanField c, v0 := word (portCode p) }) := by
        split
        · exact s2.trafficOnly_unbind c
        · exact s2.trafficOnly_notice ..
      exact (h1.trans h2).trans h3
    · exact s.trafficOnly_refl

/-- A reclaim start touches traffic, the allocation wait list and the RETEST record, and nothing else (R164). -/
theorem State.reclaimStart_frame (s : State) (p : Port) :
    s.reclaimStart p =
      { s with
        ports := (s.reclaimStart p).ports, chans := (s.reclaimStart p).chans, descs := (s.reclaimStart p).descs
        blocks := (s.reclaimStart p).blocks, freeList := (s.reclaimStart p).freeList
        retired := (s.reclaimStart p).retired, reexamsDue := (s.reclaimStart p).reexamsDue
        allocWaits := (s.dropHoldings p).allocWaits, retest := (s.dropHoldings p).retest } := by
  have h : (s.dropHoldings p).trafficOnly (s.reclaimStart p) :=
    State.trafficOnly_foldl (State.trafficOnly_reclaimChannel p) _ _
  have hd : s.dropHoldings p = { s with
      ports := (s.dropHoldings p).ports, chans := (s.dropHoldings p).chans
      reexamsDue := (s.dropHoldings p).reexamsDue
      allocWaits := (s.dropHoldings p).allocWaits, retest := (s.dropHoldings p).retest } := by
    unfold State.dropHoldings
    dsimp only
    split_ifs <;> rfl
  generalize s.dropHoldings p = u at h hd ⊢
  generalize s.reclaimStart p = t at h ⊢
  cases s; cases t; cases u
  simp only [State.trafficOnly, State.mk.injEq] at h hd ⊢
  simp_all

/-- A step of the reclaim walk touches traffic alone (R168). -/
theorem State.trafficOnly_walkAt (s : State) (p : Port) (i : DescIx) : s.trafficOnly (s.walkAt p i) := by
  unfold State.walkAt
  split_ifs
  · split
    · exact s.trafficOnly_revoke i false
    · exact s.trafficOnly_freeDesc i
    · exact s.trafficOnly_freeDesc i
    all_goals exact s.trafficOnly_refl
  · exact s.trafficOnly_refl

/-! ### Aperture accesses -/

/-- A refused access changes the accessing port's HPI alone (R106). -/
theorem State.refuseAccess_frame (s : State) (p : Port) (addr : BitVec 14) (dir : Direction) (f : FaultKind) :
    ∃ x, s.refuseAccess p addr dir f = { s with ports := x } := by
  have h : ∀ t : State, ∃ x, t.captureFault p (apertureSlot addr) (apertureOffset addr) dir f = { t with ports := x } := by
    intro t
    unfold State.captureFault
    split
    · exact ⟨_, rfl⟩
    · obtain ⟨q, ks, cs, h⟩ := (t.setHpi p { t.hpi p with
        capture := some ⟨apertureSlot addr, apertureOffset addr, dir, f, false⟩ }).notice_frame p .accessFault
          { v0 := word (apertureSlot addr).val, v1 := word (apertureOffset addr), v2 := word (faultCode f),
            v3 := word (directionCode dir) }
      exact ⟨_, by rw [h]; rfl⟩
  unfold State.refuseAccess
  dsimp only
  split_ifs
  · obtain ⟨x, hx⟩ := h (s.setSlot p (apertureSlot addr) none)
    exact ⟨x, by rw [hx]; rfl⟩
  · exact h s

/-- Marking damage changes the block records, the descriptors and the accessing port's HPI alone (R117, R118). -/
theorem State.markDamage_frame (s : State) (p : Port) (i : DescIx) (h : Word) (o : Nat) (dir : Direction) :
    ∃ x y z, s.markDamage p i h o dir = { s with ports := x, descs := y, blocks := z } := by
  have hd : ∀ t : State, ∃ y, t.setDamaged i = { t with descs := y } := by
    intro t
    unfold State.setDamaged
    split
    all_goals first | exact ⟨t.descs, rfl⟩ | exact ⟨_, rfl⟩
  obtain ⟨y, hy⟩ := hd (s.setBlock ((s.desc i).blockAt o) { s.block ((s.desc i).blockAt o) with suspect := true })
  unfold State.markDamage
  dsimp only
  rw [hy]
  split_ifs
  · exact ⟨_, _, _, rfl⟩
  · obtain ⟨q, ks, cs, hn⟩ := State.notice_frame { State.setBlock s ((s.desc i).blockAt o)
      { s.block ((s.desc i).blockAt o) with suspect := true } with descs := y } p .dataDamaged
        { v0 := h, v1 := word (o / 256), v2 := word (directionCode dir) }
    exact ⟨_, _, _, by rw [hn]; rfl⟩

end Sys2Proof.Machine
end

