-- ==== Sys2Proof/Laws/Memory.lean ====
section
/-!
SUPPORT. The laws of the sparse map and of buffer memory: a read after a write, and that every memory operation keeps the
canonical form.
-/

namespace Sys2Proof.Machine

variable {α : Type} [DecidableEq α] {d v : α} {k k' size : Nat} {m : List (Nat × α)}

/-! ### Read after write -/

omit [DecidableEq α] in
/-- A key below every listed key reads as `d`. -/
theorem cellGet_of_all_gt (h : ∀ e ∈ m, k < e.1) : cellGet d k m = d := by
  induction m with
  | nil => rfl
  | cons e rest ih =>
    obtain ⟨k', v'⟩ := e
    have hk : k < k' := h (k', v') (by simp)
    have hr : ∀ e ∈ rest, k < e.1 := fun e he => h e (by simp [he])
    rw [cellGet, if_neg (by omega), ih hr]

/-- What the canonical form says of a list with a first entry. -/
theorem cellsWf_cons : cellsWf d size ((k, v) :: m) = true ↔
    v ≠ d ∧ k < size ∧ (∀ e ∈ m, k < e.1) ∧ cellsWf d size m = true := by
  simp [cellsWf, and_assoc]

/-- A read of the key just written gives the value written. -/
theorem cellGet_cellSet_same (h : cellsWf d size m = true) : cellGet d k (cellSet d k v m) = v := by
  induction m with
  | nil => by_cases hv : v = d <;> simp [cellSet, cellGet, hv]
  | cons e rest ih =>
    obtain ⟨k', v'⟩ := e
    obtain ⟨-, -, hgt, hr⟩ := cellsWf_cons.1 h
    unfold cellSet
    split_ifs with h1 hv h2 hv
    · rw [hv]; exact cellGet_of_all_gt (by simpa using ⟨h1, fun a b hb => lt_trans h1 (hgt _ hb)⟩)
    · simp [cellGet]
    · rw [hv, h2]; exact cellGet_of_all_gt hgt
    · simp [cellGet]
    · rw [cellGet, if_neg (by omega), ih hr]

/-- A read of any other key gives what it gave before. -/
theorem cellGet_cellSet_ne (h : cellsWf d size m = true) (hk : k ≠ k') :
    cellGet d k' (cellSet d k v m) = cellGet d k' m := by
  induction m with
  | nil => by_cases hv : v = d <;> simp [cellSet, cellGet, hv, hk]
  | cons e rest ih =>
    obtain ⟨k1, v1⟩ := e
    obtain ⟨-, -, -, hr⟩ := cellsWf_cons.1 h
    unfold cellSet
    split_ifs with h1 hv h2 hv
    · rfl
    · rw [cellGet, if_neg hk]
    · rw [cellGet, if_neg (by omega)]
    · rw [cellGet, if_neg hk, cellGet, if_neg (by omega)]
    · simp only [cellGet, ih hr]

/-! ### The canonical form is kept -/

/-- Every key of a map after a write is the written key or was listed. -/
theorem mem_cellSet {e : Nat × α} (h : e ∈ cellSet d k v m) : e = (k, v) ∨ e ∈ m := by
  induction m with
  | nil =>
    by_cases hv : v = d
    · simp [cellSet, hv] at h
    · left; simpa [cellSet, hv] using h
  | cons e' rest ih =>
    obtain ⟨k1, v1⟩ := e'
    unfold cellSet at h
    split_ifs at h with h1 hv h2 hv
    · exact .inr h
    · simpa using h
    · exact .inr (by simp [h])
    · rcases List.mem_cons.1 h with h | h
      · exact .inl h
      · exact .inr (by simp [h])
    · rcases List.mem_cons.1 h with h | h
      · exact .inr (by simp [h])
      · rcases ih h with h | h
        · exact .inl h
        · exact .inr (by simp [h])

/-- A write below the size keeps the canonical form. -/
theorem cellsWf_cellSet (h : cellsWf d size m = true) (hk : k < size) : cellsWf d size (cellSet d k v m) = true := by
  induction m with
  | nil => by_cases hv : v = d <;> simp [cellSet, cellsWf, hv, hk]
  | cons e rest ih =>
    obtain ⟨k', v'⟩ := e
    obtain ⟨hv', hk', hgt, hr⟩ := cellsWf_cons.1 h
    unfold cellSet
    split_ifs with h1 hv h2 hv
    · exact h
    · exact cellsWf_cons.2 ⟨hv, hk, by simpa using ⟨h1, fun a b hb => lt_trans h1 (hgt _ hb)⟩, h⟩
    · exact hr
    · exact cellsWf_cons.2 ⟨hv, hk, fun e he => h2 ▸ hgt e he, hr⟩
    · refine cellsWf_cons.2 ⟨hv', hk', fun e he => ?_, ih hr⟩
      rcases mem_cellSet he with rfl | he
      · show k' < k; omega
      · exact hgt e he

/-- Dropping entries keeps the canonical form. -/
theorem cellsWf_filter (p : Nat × α → Bool) (h : cellsWf d size m = true) : cellsWf d size (m.filter p) = true := by
  induction m with
  | nil => rfl
  | cons e rest ih =>
    obtain ⟨k', v'⟩ := e
    obtain ⟨hv', hk', hgt, hr⟩ := cellsWf_cons.1 h
    by_cases hp : p (k', v') = true
    · rw [List.filter_cons_of_pos hp]
      exact cellsWf_cons.2 ⟨hv', hk', fun e he => hgt e (List.mem_filter.1 he).1, ih hr⟩
    · rw [List.filter_cons_of_neg hp]; exact ih hr

/-! ### The operations of buffer memory -/

/-- The canonical form of the three maps (`Safety.lean` states it of the state as `State.memoryWf`). -/
theorem storeWord_keeps_form (s : State) (w : MemIx) (x : Word)
    (hm : cellsWf 0#8 memBytes s.mem = true) (hu : cellsWf 0#22 memWords s.upsets = true) :
    cellsWf 0#8 memBytes (s.storeWord w x).mem = true ∧ cellsWf 0#22 memWords (s.storeWord w x).upsets = true := by
  have hw := w.isLt
  refine ⟨cellsWf_cellSet (cellsWf_cellSet hm ?_) ?_, cellsWf_cellSet hu ?_⟩ <;>
    simp only [memBytes, memWords] <;> omega

theorem zeroBlock_keeps_form (s : State) (b : BlockIx)
    (hm : cellsWf 0#8 memBytes s.mem = true) (hu : cellsWf 0#22 memWords s.upsets = true) :
    cellsWf 0#8 memBytes (s.zeroBlock b).mem = true ∧ cellsWf 0#22 memWords (s.zeroBlock b).upsets = true :=
  ⟨cellsWf_filter _ hm, cellsWf_filter _ hu⟩

theorem zeroMemory_keeps_form (s : State) :
    cellsWf 0#8 memBytes s.zeroMemory.mem = true ∧ cellsWf 0#22 memWords s.zeroMemory.upsets = true :=
  ⟨rfl, rfl⟩

theorem upsetWord_keeps_form (s : State) (w : MemIx) (flips cells level : StoredBits)
    (hu : cellsWf 0#22 memWords s.upsets = true) (hk : cellsWf Stuck.none memWords s.stuckCells = true) :
    cellsWf 0#22 memWords (s.upsetWord w flips cells level).upsets = true ∧
      cellsWf Stuck.none memWords (s.upsetWord w flips cells level).stuckCells = true := by
  have hw := w.isLt
  refine ⟨cellsWf_cellSet hu ?_, cellsWf_cellSet hk ?_⟩ <;> simp only [memWords] <;> omega

/-- The end of a block test touches the stored words alone. -/
theorem closeTest_frame (s : State) (b : BlockIx) (ds : List Disturbance) :
    s.closeTest b ds = { s.zeroBlock b with upsets := (s.closeTest b ds).upsets } := by
  unfold State.closeTest
  generalize s.zeroBlock b = s
  induction ds generalizing s with
  | nil => rfl
  | cons d ds ih =>
    rw [List.foldl_cons, ih]
    split_ifs <;> rfl

theorem closeTest_keeps_form (s : State) (b : BlockIx) (ds : List Disturbance)
    (hm : cellsWf 0#8 memBytes s.mem = true) (hu : cellsWf 0#22 memWords s.upsets = true) :
    cellsWf 0#8 memBytes (s.closeTest b ds).mem = true ∧ cellsWf 0#22 memWords (s.closeTest b ds).upsets = true := by
  refine ⟨by rw [closeTest_frame]; exact (zeroBlock_keeps_form s b hm hu).1, ?_⟩
  have h := (zeroBlock_keeps_form s b hm hu).2
  unfold State.closeTest
  generalize s.zeroBlock b = s at h
  induction ds generalizing s with
  | nil => exact h
  | cons d ds ih =>
    rw [List.foldl_cons]
    refine ih _ ?_
    split_ifs
    · exact cellsWf_cellSet h (by have := d.word.isLt; simp only [memWords]; omega)
    · exact h

omit [DecidableEq α] in
/-- A read of a map from which the entries at some keys were dropped. -/
theorem cellGet_filter (q : Nat → Bool) : cellGet d k (m.filter (fun e => q e.1)) = if q k then cellGet d k m else d := by
  induction m with
  | nil => simp [cellGet]
  | cons e rest ih =>
    obtain ⟨k', v'⟩ := e
    rw [List.filter_cons, cellGet]
    by_cases h1 : q k' = true
    · rw [if_pos h1, cellGet, ih]
      split_ifs with h2 h3 h3 <;> simp_all
    · rw [if_neg h1, ih]
      split_ifs with h2 h3 <;> simp_all

/-- A flip on both sides of an exclusive or cancels. -/
theorem xor_cancel {x m f a y : StoredBits} (h : x ^^^ (m ^^^ f) = a ^^^ f ^^^ y) : x ^^^ m = a ^^^ y := by
  apply BitVec.eq_of_getLsbD_eq
  intro i _
  have h := congrArg (fun v => v.getLsbD i) h
  simp only [BitVec.getLsbD_xor] at h ⊢
  revert h
  cases x.getLsbD i <;> cases m.getLsbD i <;> cases f.getLsbD i <;> cases a.getLsbD i <;> cases y.getLsbD i <;> decide

/-- After the upset of one word that word has its bits changed, and every other word those it had. -/
theorem upset_flipBits (s : State) (w u : MemIx) (flips : StoredBits) (hu : cellsWf 0#22 memWords s.upsets = true) :
    (s.flipBits w flips).upset u = if u = w then s.upset w ^^^ flips else s.upset u := by
  simp only [State.upset, State.flipBits]
  split_ifs with h
  · rw [h, cellGet_cellSet_same hu]
  · rw [cellGet_cellSet_ne hu (fun e => h (Fin.ext e.symm))]

/-- A block test leaves on each word of its block the bits upset after the word's closing write, and flips those of any
other word that the note of upsets names. -/
theorem upset_closeTest (s : State) (b : BlockIx) (ds : List Disturbance) (u : MemIx)
    (hu : cellsWf 0#22 memWords s.upsets = true) :
    (s.closeTest b ds).upset u = (if u.val / 128 = b.val then 0#22 else s.upset u) ^^^ flipsAfter ds u 7 := by
  have h : cellsWf 0#22 memWords (s.zeroBlock b).upsets = true := cellsWf_filter _ hu
  have hz : (s.zeroBlock b).upset u = if u.val / 128 = b.val then 0#22 else s.upset u := by
    have := cellGet_filter (d := 0#22) (k := u.val) (m := s.upsets) (fun k => decide (k / 128 ≠ b.val))
    simp only [State.upset, State.zeroBlock, this]
    split_ifs <;> simp_all
  rw [← hz]
  unfold State.closeTest flipsAfter
  generalize s.zeroBlock b = s at h
  clear hz hu
  suffices ∀ (m : StoredBits) (s₀ : State), cellsWf 0#22 memWords s₀.upsets = true →
      (ds.foldl (fun s d => if d.opsDone = 7 then s.flipBits d.word d.flips else s) s₀).upset u ^^^ m =
        s₀.upset u ^^^ ds.foldl (fun m d => if d.word = u ∧ d.opsDone = 7 then m ^^^ d.flips else m) m by
    simpa using this 0#22 s h
  clear h s
  induction ds with
  | nil => intro m s₀ _; rfl
  | cons e ds ih =>
    intro m s₀ h
    rw [List.foldl_cons, List.foldl_cons]
    by_cases h7 : e.opsDone = 7
    · have hk : cellsWf 0#22 memWords (s₀.flipBits e.word e.flips).upsets = true :=
        cellsWf_cellSet h (by have := e.word.isLt; simp only [memWords]; omega)
      by_cases hw : e.word = u
      · subst hw
        have hi := ih (m ^^^ e.flips) _ hk
        rw [upset_flipBits _ _ _ _ h, if_pos rfl] at hi
        rw [if_pos h7, if_pos ⟨rfl, h7⟩]
        exact xor_cancel hi
      · rw [if_pos h7, if_neg (by simp [hw]), ih _ _ hk, upset_flipBits _ _ _ _ h, if_neg (fun e => hw e.symm)]
    · rw [if_neg h7, if_neg (by simp [h7]), ih _ _ h]

/-- The note of an upset touches the RETEST record and the count of free values alone. -/
theorem noteUpset_frame (s : State) (w : MemIx) (flips cells : StoredBits) :
    s.noteUpset w flips cells =
      { s with retest := (s.noteUpset w flips cells).retest, freeDraws := (s.noteUpset w flips cells).freeDraws } := by
  unfold State.noteUpset
  split
  · rfl
  · split_ifs <;> rfl

/-- The two bytes of a word split and joined again. -/
theorem bytes_join (x : Word) : x.extractLsb' 8 8 ++ x.extractLsb' 0 8 = x := by
  apply BitVec.eq_of_getLsbD_eq
  intro i hi
  simp only [BitVec.getLsbD_append, BitVec.getLsbD_extractLsb']
  split <;> rename_i h
  · simp [h]
  · rw [show 8 + (i - 8) = i by omega]; simp [show i - 8 < 8 by omega]

/-- A word just stored reads as it was stored, and every other word as before. -/
theorem written_storeWord (s : State) (w u : MemIx) (x : Word) (hm : cellsWf 0#8 memBytes s.mem = true) :
    (s.storeWord w x).written u = if u = w then x else s.written u := by
  have hw := w.isLt
  have h1 : cellsWf 0#8 memBytes (cellSet 0#8 (2 * w.val) (x.extractLsb' 0 8) s.mem) = true :=
    cellsWf_cellSet hm (by simp only [memBytes]; omega)
  have hb : ∀ a, (s.storeWord w x).byteAt a =
      if a = 2 * w.val + 1 then x.extractLsb' 8 8 else if a = 2 * w.val then x.extractLsb' 0 8 else s.byteAt a := by
    intro a
    simp only [State.byteAt, State.storeWord]
    split_ifs with ha hb
    · rw [ha, cellGet_cellSet_same h1]
    · rw [cellGet_cellSet_ne h1 (by omega), hb, cellGet_cellSet_same hm]
    · rw [cellGet_cellSet_ne h1 (by omega), cellGet_cellSet_ne hm (by omega)]
  unfold State.written
  rw [hb, hb]
  split_ifs with ha hb hc hd he <;> first | exact bytes_join x | rfl | (exfalso; simp only [Fin.ext_iff] at *; omega)

/-- A word just stored carries no upset, and every other word the upsets it carried. -/
theorem upset_storeWord (s : State) (w u : MemIx) (x : Word) (hu : cellsWf 0#22 memWords s.upsets = true) :
    (s.storeWord w x).upset u = if u = w then 0#22 else s.upset u := by
  simp only [State.upset, State.storeWord]
  split_ifs with h
  · rw [h, cellGet_cellSet_same hu]
  · rw [cellGet_cellSet_ne hu (fun e => h (Fin.ext e.symm))]

end Sys2Proof.Machine
end

