-- ==== Sys2Proof/Laws/Terms.lean ====
section
/-!
SUPPORT. The shared operations in the terms of the statements: what one completion, one notice, one presentation, one freeing
and one allocation make of the state.
-/

namespace Sys2Proof.Machine

/-! ### Two updates of one record -/

/-- Updates of two ports' HPIs commute. -/
theorem State.setHpi_comm (s : State) {p q : Port} (hpq : p ≠ q) (h g : Hpi) :
    (s.setHpi p h).setHpi q g = (s.setHpi q g).setHpi p h := by
  cases p <;> cases q <;> first | rfl | exact absurd rfl hpq

/-- The two updates of a descriptor and of an HPI commute. -/
theorem State.setDesc_setHpi (s : State) (i : DescIx) (d : Desc) (p : Port) (h : Hpi) :
    (s.setDesc i d).setHpi p h = (s.setHpi p h).setDesc i d := rfl

/-- The two updates of a channel and of an HPI commute. -/
theorem State.setChan_setHpi (s : State) (c : ChanIx) (x : Chan) (p : Port) (h : Hpi) :
    (s.setChan c x).setHpi p h = (s.setHpi p h).setChan c x := rfl

/-- Every other port keeps its HPI in an update of one. -/
theorem State.othersKept_setHpi (s : State) (p : Port) (h : Hpi) : s.othersKept (s.setHpi p h) p :=
  fun _ hq => State.hpi_setHpi_ne _ _ (Ne.symm hq)

/-! ### Completions and notices -/

/-- A completion of an outstanding request (R142). -/
theorem State.complete_eq (s : State) (p : Port) (tag : Tag) (k : ReqKind) (code : ResultCode) (v : Vals)
    (h : s.hasRequest p tag k) :
    s.complete p tag code v = s.setHpi p ((s.hpi p).afterCompletion tag k code v s.stamp) := by
  obtain ⟨⟨e, he, rfl, rfl⟩, hn⟩ := h
  rw [State.complete_of_find s p e.req.tag code v (find_tag_of_mem hn he), eraseP_tag_eq_filter hn]
  rfl

/-- A notice, in every state of the port (R152). -/
theorem State.notice_eq (s : State) (p : Port) (k : NoticeKind) (v : Vals) :
    s.notice p k v = s.setHpi p ((s.hpi p).afterNotice k v s.stamp) := by
  have hb : s.online p = true ↔ (s.hpi p).state = .online := by simp [State.online]
  by_cases ho : s.online p = true
  · by_cases hf : (s.hpi p).summaryEmpty = true ∧ (s.hpi p).occupied + (s.hpi p).outstanding < 32
    · rw [s.notice_written p k v ho hf.1 hf.2]
      simp [Hpi.afterNotice, hb.1 ho, hf, State.writeRecord]
    · rw [s.notice_folded p k v ho hf]
      simp only [Hpi.afterNotice, hb.1 ho, if_true, if_neg hf, Hpi.fold, BitVec.twoPow_eq]
  · rw [s.notice_offline p k v (by simpa using ho), Hpi.afterNotice, if_neg (fun h => ho (hb.2 h)), State.setHpi_self]

/-- What a presented request is: outstanding with its own tag and kind. -/
theorem State.presents.hasRequest {s : State} {k : ReqKind} {p : Port} {r : Request} (h : s.presents k p r) :
    s.hasRequest p r.tag k := by
  obtain ⟨_, hn, hk, ht⟩ := h
  refine ⟨?_, ht⟩
  unfold State.nextPending at hn
  obtain ⟨e, he, rfl⟩ := Option.map_eq_some_iff.1 hn
  exact ⟨e, List.mem_of_find?_eq_some he, rfl, hk⟩

/-- A presented request is settled by the unit that owns its kind. -/
theorem State.presents.present {s : State} {k : ReqKind} {p : Port} {r : Request} (h : s.presents k p r)
    (f : Request → Port → State → State) : s.present k p f = f r p s := State.present_eq s k p f r h.1 h.2.1 h.2.2.1

/-- A completion of the presented request alone. -/
theorem State.presents.onlyCompletes {s : State} {k : ReqKind} {p : Port} {r : Request} (h : s.presents k p r)
    (code : ResultCode) (v : Vals) : s.onlyCompletes (s.complete p r.tag code v) p r code v := by
  rw [State.complete_eq s p r.tag k code v h.hasRequest, ← h.2.2.1]
  exact ⟨State.hpi_setHpi_same _ _ _, State.othersKept_setHpi _ _ _, rfl⟩

/-- Leaving a request WAITING or RUNNING. -/
theorem State.leaveOutstanding_eq (s : State) (p : Port) (tag : Tag) (x : EntryState) :
    s.leaveOutstanding p tag x = s.setHpi p ((s.hpi p).leftAs tag x) := rfl

/-- An outstanding request of another tag is outstanding after a completion. -/
theorem Hpi.mem_afterCompletion (h : Hpi) (tag : Tag) (k : ReqKind) (code : ResultCode) (v : Vals) (stamp : Word)
    (e : Entry) : e ∈ (h.afterCompletion tag k code v stamp).table ↔ e ∈ h.table ∧ e.req.tag ≠ tag := by
  simp [Hpi.afterCompletion]

/-- The tags of the table that is left after a completion differ. -/
theorem Hpi.nodup_afterCompletion (h : Hpi) (tag : Tag) (k : ReqKind) (code : ResultCode) (v : Vals) (stamp : Word)
    (hn : (h.table.map (fun e => e.req.tag)).Nodup) :
    (((h.afterCompletion tag k code v stamp).table).map (fun e => e.req.tag)).Nodup :=
  hn.sublist (List.Sublist.map _ List.filter_sublist)

/-- Outstanding requests of a port with different kinds have different tags. -/
theorem State.hasRequest.tag_ne {s : State} {p : Port} {a b : Tag} {j k : ReqKind} (ha : s.hasRequest p a j)
    (hb : s.hasRequest p b k) (hjk : j ≠ k) : a ≠ b := by
  obtain ⟨⟨e, he, rfl, rfl⟩, hn⟩ := ha
  obtain ⟨⟨f, hf, hft, rfl⟩, _⟩ := hb
  intro hab
  have h1 := find_tag_of_mem hn he
  have h2 := find_tag_of_mem hn hf
  rw [hft, ← hab, h1] at h2
  exact hjk (by rw [Option.some.inj h2])

/-- An outstanding request stays outstanding in a state whose port has completed another one. -/
theorem State.hasRequest.after {s : State} {p : Port} {a b : Tag} {j k : ReqKind} (ha : s.hasRequest p a j) (hab : a ≠ b)
    (code : ResultCode) (v : Vals) (stamp : Word) :
    (s.setHpi p ((s.hpi p).afterCompletion b k code v stamp)).hasRequest p a j := by
  obtain ⟨⟨e, he, ht, hk⟩, hn⟩ := ha
  refine ⟨⟨e, ?_, ht, hk⟩, ?_⟩
  · rw [State.hpi_setHpi_same]
    exact (Hpi.mem_afterCompletion _ _ _ _ _ _ _).2 ⟨he, by rw [ht]; exact hab⟩
  · rw [State.hpi_setHpi_same]
    exact Hpi.nodup_afterCompletion _ _ _ _ _ _ hn

/-- Several completions of one port, in list order (R52, R56). -/
theorem State.completeAll_eq (ws : List Wait) (s : State) (p : Port) (k : ReqKind) (code : ResultCode) (v : Vals)
    (hr : ∀ w ∈ ws, s.hasRequest p w.tag k) (hn : (ws.map Wait.tag).Nodup) :
    s.completeAll p ws code v = s.setHpi p ((s.hpi p).afterAll ws k code v s.stamp) := by
  induction ws generalizing s with
  | nil => exact (State.setHpi_self s p).symm
  | cons w rest ih =>
    rw [List.map_cons, List.nodup_cons] at hn
    have hw := hr w (List.mem_cons_self ..)
    change (s.complete p w.tag code v).completeAll p rest code v = _
    rw [State.complete_eq s p w.tag k code v hw, ih]
    · rw [State.setHpi_setHpi, State.hpi_setHpi_same]
      rfl
    · intro x hx
      exact (hr x (List.mem_cons_of_mem _ hx)).after (fun h => hn.1 (by rw [← h]; exact List.mem_map_of_mem hx)) _ _ _
    · exact hn.2

/-! ### The pool -/

/-- The lowest FREE descriptor is the one an allocation finds (R13). -/
theorem State.lowestFree_eq (s : State) (i : DescIx) (h : s.isLowestFree i) : s.lowestFree = some i := by
  unfold State.lowestFree
  cases hf : (List.finRange 128).find? (fun i => (s.desc i).state == .free) with
  | none =>
    have := List.find?_eq_none.1 hf i (List.mem_finRange i)
    simp [h.1] at this
  | some j =>
    obtain ⟨hj, hl⟩ := s.lowestFree_spec j hf
    rcases lt_trichotomy i j with hij | rfl | hij
    · exact absurd h.1 (hl i hij)
    · rfl
    · exact absurd hj (h.2 j hij)

/-- `n` blocks can be given with the lowest FREE descriptor (R28). -/
theorem State.canGive_eq (s : State) (n : Nat) (i : DescIx) (hn : n ≤ s.freeList.length) (h : s.isLowestFree i) :
    s.canGive n = some i := by rw [State.canGive, if_pos hn, s.lowestFree_eq i h]

/-- `n` blocks cannot be given. -/
theorem State.canGive_none (s : State) (n : Nat) (h : s.cannotGive n) : s.canGive n = none := by
  unfold State.canGive
  split_ifs with hn
  · rcases h with h | h
    · omega
    · exact List.find?_eq_none.2 fun i _ => by simpa using h i
  · rfl

/-- What handing over several different blocks does to the two lists and the block records (R21). -/
theorem State.handOverAll_spec (bs : List BlockIx) (s : State) (hn : bs.Nodup) :
    (bs.foldl State.handOver s).freeList = s.freeList ++ bs.filter (fun b => !(s.block b).suspect) ∧
      (bs.foldl State.handOver s).retired = s.retired ++ bs.filter (fun b => (s.block b).suspect) ∧
      ∀ b, (bs.foldl State.handOver s).block b =
        if b ∈ bs then ⟨if (s.block b).suspect then .retired else .free, false⟩ else s.block b := by
  induction bs generalizing s with
  | nil => simp
  | cons x rest ih =>
    rw [List.nodup_cons] at hn
    obtain ⟨h1, h2, h3⟩ := ih (s.handOver x) hn.2
    have hb : ∀ b, (s.handOver x).block b =
        if x = b then ⟨if (s.block b).suspect then .retired else .free, false⟩ else s.block b := by
      intro b
      unfold State.handOver
      by_cases hxb : x = b
      · subst hxb
        split_ifs with hs <;> simp_all [State.block, State.setBlock]
      · split_ifs with hs <;> simp [State.block, State.setBlock, hxb, Fin.val_inj]
    have hk : ∀ b ∈ rest, (s.handOver x).block b = s.block b := fun b hbm => by
      have hne : x ≠ b := fun h => hn.1 (by rw [h]; exact hbm)
      rw [hb, if_neg hne]
    have e1 : rest.filter (fun b => !((s.handOver x).block b).suspect) = rest.filter (fun b => !(s.block b).suspect) :=
      List.filter_congr fun b hbm => by rw [hk b hbm]
    have e2 : rest.filter (fun b => ((s.handOver x).block b).suspect) = rest.filter (fun b => (s.block b).suspect) :=
      List.filter_congr fun b hbm => by rw [hk b hbm]
    rw [List.foldl_cons, h1, h2, e1, e2]
    refine ⟨?_, ?_, fun b => ?_⟩
    · unfold State.handOver
      split_ifs with hs <;> simp [hs]
    · unfold State.handOver
      split_ifs with hs <;> simp [hs]
    · rw [h3 b]
      by_cases hbr : b ∈ rest
      · rw [if_pos hbr, if_pos (List.mem_cons_of_mem _ hbr), hk b hbr]
      · rw [if_neg hbr, hb b]
        by_cases hxb : x = b
        · subst hxb
          rw [if_pos rfl, if_pos (List.mem_cons_self (a := x) (l := rest))]
        · rw [if_neg hxb, if_neg]
          rintro hm
          rcases List.mem_cons.1 hm with h | h
          · exact hxb h.symm
          · exact hbr h

/-- Becoming FREE, of a descriptor whose blocks differ (R12). -/
theorem State.becameFree_freeDesc (s : State) (i : DescIx) (h : (s.desc i).state ≠ .free)
    (hn : (s.desc i).blockList.Nodup) : s.becameFree (s.freeDesc i) i := by
  have hbuf : ∃ b, (s.desc i).buf = some b := by
    unfold Desc.state at h
    unfold Desc.buf
    split <;> simp_all
  obtain ⟨b, hb⟩ := hbuf
  have hl : (s.desc i).blockList = b.blocks := by simp [Desc.blockList, hb]
  rw [hl] at hn
  obtain ⟨h1, h2, h3⟩ := State.handOverAll_spec b.blocks s hn
  have hr : (b.blocks.foldl State.handOver s).reexamsDue = s.reexamsDue := by
    obtain ⟨x, f, r, e⟩ := State.handOverAll_frame b.blocks s
    rw [e]
  refine ⟨s.freeDesc_desc_same i (by simp [hb]), fun j hj => s.freeDesc_desc_ne (Ne.symm hj), ?_, ?_, ?_, ?_⟩
  all_goals simp only [State.freeDesc, hb, hl]
  · exact h1
  · exact h2
  · exact fun b => h3 b
  · exact congrArg (· + 1) hr

end Sys2Proof.Machine
end

