-- ==== Sys2Proof/Tests/Slice0.lean ====
section
/-!
SUPPORT. Tests of the model and witnesses of the statements' hypotheses: a state in which every law holds and every kind of
object is in use, the refusals of the well-formedness checks, one or two steps of each command with results taken from the
spec, and for each statement with hypotheses concrete states and operands that meet them together.
-/

namespace Sys2Proof.Tests

open Sys2Proof Sys2Proof.Machine

-- One theorem after another: the kernel's evaluations take little memory each and much together.
set_option Elab.async false

/-! ### States -/

/-- A request with every field it does not name zero. -/
def req (kind : ReqKind) (tag : Tag) : Request := ⟨kind, tag, 0, 0, 0, 0, 0, 0, 0, 0, 0, 0⟩

/-- A port ONLINE with these outstanding requests. -/
def onHpi (table : List Entry) : Hpi := { Hpi.reset with state := .online, table := table }

/-- The device READY, every port OFFLINE. -/
def awake : State := { State.reset with resetIn := false, device := .ready }

/-- A buffer of port `p`. -/
def buf (p : Port) (blocks : List BlockIx) : Buf := ⟨p, blocks, false⟩

/-- The descriptors of `base`. -/
def baseDescs : Vector Desc 128 :=
  (((((((((State.reset.descs.set 0 ⟨1#8, .filling (buf .A [0])⟩).set 1
    ⟨2#8, .queued (buf .A [1, 2]) ⟨300, 0, 1#16, none⟩⟩).set 2
    ⟨3#8, .held (buf .A [3]) ⟨7, 0, 0#16, none⟩ .B (some (.running 40)) 1⟩).set 3
    ⟨4#8, .returning (buf .A [4]) ⟨9, 1, 0#16, some (0, 128)⟩ ⟨.replied, some 5⟩⟩).set 4
    ⟨5#8, .held ⟨.A, [5], true⟩ ⟨9, 1, 2#16, some (0, 128)⟩ .B none 0⟩).set 5
    ⟨6#8, .collected (buf .A [6]) ⟨9, 1, 1#16, none⟩ ⟨.undelivered, none⟩⟩).set 6
    ⟨7#8, .held (buf .A [7]) ⟨1, 3, 0#16, none⟩ .B (some .ranOut) 2⟩).set 7
    ⟨255#8, .held (buf .C [8]) ⟨1, 6, 0#16, none⟩ .B (some .ranOut) 0⟩).set 8
    ⟨9#8, .returning (buf .A [9]) ⟨1, 7, 4#16, none⟩ ⟨.revoked, none⟩⟩).set 9 ⟨0#8, .filling (buf .B [12])⟩

/-- Channel 0 of `base`: ONE_WAY from A to B, one buffer queued and one held. -/
def chan0 : Active := ⟨⟨.oneWay, .A, .B, 4, 100, 1⟩, false, false, 2#16, [1], [], [], []⟩

/-- Channel 1 of `base`: ROUND_TRIP from A to B, one buffer held and one returning. -/
def chan1 : Active := ⟨⟨.roundTrip, .A, .B, 4, 0, 0⟩, false, false, 3#16, [], [3], [], []⟩

/-- Channel 3 of `base`: ROUND_TRIP from A to B, one buffer held and a COLLECT waiting. -/
def chan3 : Active := ⟨⟨.roundTrip, .A, .B, 1, 50, 2⟩, false, false, 1#16, [], [], [], [⟨7#8, some .ranOut⟩]⟩

/-- Channel 4 of `base`: ONE_WAY from B to A, empty, a TAKE waiting. -/
def chan4 : Active := ⟨⟨.oneWay, .B, .A, 2, 0, 0⟩, false, false, 0#16, [], [], [⟨8#8, some .ranOut⟩], []⟩

/-- Channel 5 of `base`: ROUND_TRIP from A to B with nothing on it. -/
def chan5 : Active := ⟨⟨.roundTrip, .A, .B, 1, 0, 0⟩, false, false, 0#16, [], [], [], []⟩

/-- Channel 6 of `base`: ONE_WAY from C to B, closed by its producer, its last buffer held. -/
def chan6 : Active := ⟨⟨.oneWay, .C, .B, 1, 60, 0⟩, true, false, 1#16, [], [], [], []⟩

/-- Channel 7 of `base`: ROUND_TRIP from A to B, closed by its consumer, its last buffer returning. -/
def chan7 : Active := ⟨⟨.roundTrip, .A, .B, 1, 60, 0⟩, false, true, 5#16, [], [8], [], []⟩

/-- The offer of channel 2 of `base`: A offers it to C with the largest limits. -/
def offer2 : ChanParams := ⟨.roundTrip, .A, .C, 32, 10, 15⟩

/-- The channels of `base`; those from 8 upwards are UNBOUND. -/
def baseChans : Vector Chan 16 :=
  (((((((State.reset.chans.set 0 (.active chan0)).set 1 (.active chan1)).set 2 (.offered offer2 9#8 .ranOut)).set 3
    (.active chan3)).set 4 (.active chan4)).set 5 (.active chan5)).set 6 (.active chan6)).set 7 (.active chan7)

/-- Port A of `base`: an OFFER, a COLLECT and a TAKE waiting, one record to read, a filling buffer in slot 0, a stale mapping
in slot 1 and a collected buffer in slot 2. -/
def baseA : Hpi :=
  { onHpi [⟨{ req .offer 9#8 with channel := 2#5 }, .waiting⟩, ⟨{ req .collect 7#8 with channel := 3#5 }, .waiting⟩,
      ⟨{ req .take 8#8 with channel := 4#5 }, .waiting⟩] with
    queue := [.completion .done 1#8 .attach { v0 := 128#16 } 0#16]
    attnEnable := true
    apertures := ((Hpi.reset.apertures.set 0 (some 0x0100#16)).set 1 (some 0x0201#16)).set 2 (some 0x0605#16) }

/-- Port B of `base`: a RETEST running, and a held buffer with a reply range in slot 7. -/
def baseB : Hpi :=
  { onHpi [⟨req .retest 3#8, .running⟩] with apertures := Hpi.reset.apertures.set 7 (some 0x0504#16) }

/-- The blocks in the free list of `base`. -/
def baseFree (b : BlockIx) : Bool := decide (10 ≤ b.val) && decide (b.val ≠ 12) && decide (b.val ≠ 20)

/-- The block records of `base`: 0 to 9 and 12 in use, 2 and 5 of them suspect, 20 retired, the rest free. -/
def baseBlock (b : BlockIx) : BlockRec :=
  if baseFree b then ⟨.free, false⟩ else if b = 20 then ⟨.retired, false⟩ else ⟨.inUse, decide (b = 2 ∨ b = 5)⟩

/-- Three ports ONLINE with something in every table, queue and list. -/
def base : State :=
  { awake with
    ticks := 0x12345#32
    ports := ⟨baseA, baseB, onHpi [⟨{ req .allocate 5#8 with count := 4 }, .waiting⟩], Hpi.reset⟩
    descs := baseDescs
    blocks := Vector.ofFn baseBlock
    freeList := (List.finRange 512).filter baseFree
    retired := [20]
    allocWaits := [⟨.C, 5#8, 4, some .ranOut⟩]
    reexamsDue := 1
    chans := baseChans
    mem := [(0, 0x34#8), (1, 0x12#8), (2, 0x78#8)]
    upsets := [(1, 1#22), (2, 3#22)]
    stuckCells := [(2560, ⟨1#22, 1#22⟩)]
    retest := some ⟨some (.B, 3#8), 1, 1, 0, 20, []⟩ }

/-- `s` with `r` the next request of `p` to be presented. -/
def asks (s : State) (p : Port) (r : Request) : State :=
  s.setHpi p { s.hpi p with table := (s.hpi p).table ++ [⟨r, .pending⟩] }

/-! ### The laws hold in `base` -/

theorem forall_some {α : Type} {o : Option α} {P : α → Prop} [DecidablePred P]
    (h : o.all (fun a => decide (P a)) = true) : ∀ a, o = some a → P a := by
  intro a ha
  simpa [ha] using h

theorem witness_portLaw : base.portLaw ∧ base.tagLaw := by
  constructor <;> intro p <;> cases p <;> (first | unfold Hpi.law Hpi.bare | skip) <;> decide +kernel

theorem witness_quotaLaw : base.quotaLaw ∧ base.demandLaw := by
  refine ⟨by unfold State.quotaLaw; decide +kernel, fun p => ?_⟩
  cases p <;> decide +kernel

theorem count_filter_finRange {n : Nat} (q : Fin n → Bool) (b : Fin n) :
    ((List.finRange n).filter q).count b = if q b then 1 else 0 := by
  split
  · next hb => rw [List.count_filter hb, List.count_eq_one_of_mem (List.nodup_finRange n) (List.mem_finRange b)]
  · next hb => rw [List.count_eq_zero]; simp [hb]

theorem base_freeList : base.freeList = (List.finRange 512).filter baseFree := by simp only [base]

theorem witness_blockLaw : base.blockLaw := by
  have hl : base.lentBlocks = [0, 1, 2, 3, 4, 5, 6, 7, 8, 9, 12] := by decide +kernel
  have h : ∀ b : BlockIx, (if baseFree b then 1 else 0) + base.retired.count b +
      [0, 1, 2, 3, 4, 5, 6, 7, 8, 9, 12].count b = 1 := by decide +kernel
  intro b
  rw [List.count_append, List.count_append, base_freeList, count_filter_finRange, hl]
  exact h b

theorem witness_markLaw : base.markLaw ∧ base.retestLaw := by
  refine ⟨fun b => ⟨fun hb => ?_, ?_, ?_⟩, forall_some (by decide +kernel)⟩
  · rw [base_freeList] at hb
    simp [State.block, base, baseBlock, (List.mem_filter.mp hb).2]
  · have h : ∀ b ∈ base.retired, base.block b = ⟨.retired, false⟩ := by decide +kernel
    exact h b
  · have h : ∀ b ∈ base.lentBlocks, (base.block b).state = .inUse := by decide +kernel
    exact h b

theorem witness_queueLaw : base.queueLaw := by unfold State.queueLaw; decide +kernel

theorem witness_depthLaw : base.depthLaw ∧ base.closingLaw := by
  refine ⟨fun c => ?_, by unfold State.closingLaw; decide +kernel⟩
  have h : ∀ c : ChanIx, (match (base.chan c).active? with
    | none => decide (base.inTransit c = 0)
    | some a => decide (base.inTransit c ≤ a.params.depthLimit)) = true := by decide +kernel
  specialize h c
  split at h <;> simp_all

theorem witness_sequenceLaw : base.sequenceLaw ∧ base.waitLaw ∧ base.endsLaw := by
  refine ⟨fun c => forall_some ?_, fun c => forall_some ?_, fun c => forall_some ?_⟩ <;> revert c <;> decide +kernel

theorem witness_transitLaw : base.transitLaw := by
  have h : ∀ i : DescIx, ((base.desc i).buf.all fun b => (base.desc i).traffic.all fun t =>
      (base.desc i).state == .collected || ((base.chan t.channel).active?.any fun a =>
        decide (a.params.producer = b.origin ∧
          ((base.desc i).state = .held → (base.desc i).holder = some a.params.consumer)))) = true := by decide +kernel
  intro i b t hb ht hs
  have hi := h i
  simp only [hb, ht, Option.all_some, Bool.or_eq_true, beq_iff_eq, hs, false_or, Option.any_eq_true,
    decide_eq_true_eq] at hi
  exact hi

theorem witness_waiterLaw : base.waiterLaw ∧ base.walkLaw := by
  refine ⟨⟨by decide +kernel, fun c => forall_some (by revert c; decide +kernel)⟩, fun p i hi => ?_⟩
  have h : ∀ i : DescIx, (base.desc i).holder.all (fun q => (base.hpi q).state == .online) = true := by decide +kernel
  have hp := h i
  simp only [hi, Option.all_some, beq_iff_eq] at hp
  simp [hp]

theorem witness_resetLaw : base.resetLaw ∧ base.reexamLaw ∧ base.memoryWf := by
  refine ⟨⟨by decide +kernel, fun h => absurd h (by decide +kernel), fun p => ?_⟩, fun h => absurd h (by decide +kernel),
    by unfold State.memoryWf; decide +kernel⟩
  cases p <;> decide +kernel

/-! ### Well-formed commands: an ill-formed one for each check, refused -/

theorem test_wf_write_to_an_aperture_word : (Instr.registerWrite .A 0x3FFF#15 ⟨0, true, true⟩).wf = false := by decide

theorem test_wf_write_to_the_consume_word : (Instr.registerWrite .A 0x4018#15 ⟨0, true, true⟩).wf = false := by decide

theorem test_wf_write_to_the_enable_word : (Instr.registerWrite .B 0x4021#15 ⟨0, true, true⟩).wf = false := by decide

theorem test_wf_write_to_the_fault_clear_word : (Instr.registerWrite .C 0x4025#15 ⟨0, true, true⟩).wf = false := by decide

theorem test_wf_upset_of_nothing : (Instr.storedBitUpset 5 0#22 0#22 7#22).wf = false := by decide

theorem test_wf_accepts_a_staging_write : (Instr.registerWrite .D 0x4000#15 ⟨0, true, true⟩).wf = true := by decide

/-- No row of the opcode table gives bits (98_reader, n_rows_unread 46 of 46), so no word spells a command. -/
theorem test_decode_spells_nothing : decodeTableWord 16 0 = none ∧ base.withFetchWord 16 0 = base := ⟨rfl, rfl⟩

/-! ### One or two steps of each command -/

/-- The state after `c`, for a command that answers next. -/
def after (c : Instr) (s : State) : State :=
  match exec c s with
  | .next t => t
  | .fault _ | .refused _ => s

/-- The newest record of port `p`. -/
def newest (s : State) (p : Port) : Option EventRecord := (s.hpi p).queue.getLast?

/-- The record of a completion written in `base`, whose stamp is the low half of tick 0x12345 (R86). -/
def doneRec (tag : Tag) (k : ReqKind) (v : Vals) : EventRecord := .completion .done tag k v 0x2345#16

/-- R132, row 1. -/
theorem test_submission_not_ready :
    ((after (.submission .A) { State.reset with resetIn := false }).hpi .A).dataOut = 0x0001#16 := by decide +kernel

/-- R132, row 8, and R133: kind 9 is QUERY_POOL, tag 10 stands in the high byte of word 0. -/
theorem test_submission_accepted :
    let t := after (.submission .B) (base.setHpi .B { baseB with staging := baseB.staging.set 0 0x0A09#16 })
    (t.hpi .B).dataOut = 0x0008#16 ∧ (t.hpi .B).table.getLast? = some ⟨req .queryPool 10#8, .pending⟩ := by
  decide +kernel

/-- R128: a staging write with the low byte strobe alone. -/
theorem test_registerWrite_low_byte :
    ((after (.registerWrite .D 0x4001#15 ⟨0xABCD#16, true, false⟩) base).hpi .D).staging[1] = 0x00CD#16 := by
  decide +kernel

/-- R173: a write to the port status word is discarded. -/
theorem test_registerWrite_discarded :
    (after (.registerWrite .A 0x4020#15 ⟨0xFFFF#16, true, true⟩) base).hpi .A = baseA := by decide +kernel

/-- R151: the head is removed whatever the strobes. -/
theorem test_consume : ((after (.consume .A ⟨0, false, false⟩) base).hpi .A).queue = [] := by decide +kernel

/-- R155: a SUMMARY record takes the freed entry; ARRIVAL is bit 4 of the kind set (R178). -/
theorem test_consume_writes_summary :
    let h := { baseA with sumKinds := 0x10#11, sumChannels := 8#16 }
    let t := (after (.consume .A ⟨0, true, true⟩) (base.setHpi .A h)).hpi .A
    t.queue = [.summary 0x10#11 8#16 0x2345#16] ∧ t.summaryEmpty = true := by decide +kernel

/-- R174: bit 0 is taken with nLB_x asserted, and a write without it leaves the enable. -/
theorem test_attentionEnableWrite :
    ((after (.attentionEnableWrite .B ⟨1, true, false⟩) base).hpi .B).attnEnable = true ∧
      ((after (.attentionEnableWrite .A ⟨0, false, true⟩) base).hpi .A).attnEnable = true := by decide +kernel

/-- R110. -/
theorem test_faultClear :
    ((after (.faultClear .A ⟨0, false, false⟩)
      (base.setHpi .A { baseA with capture := some ⟨1, 4, .read, .stale, true⟩ })).hpi .A).capture = none := by
  decide +kernel

/-- R175: tick 0x00012345 reads as 0x2345 with 0x0001 latched. -/
theorem test_tickLowRead :
    let t := after (.tickLowRead .D) base
    (t.hpi .D).dataOut = 0x2345#16 ∧ t.plainRead .D 0x4027#15 = some 0x0001#16 ∧ (t.hpi .A).tickLatch = 0#16 := by
  decide +kernel

/-- R107, R116: the word at offset 2 has one stored bit upset; the read returns it as written and repairs it. -/
theorem test_apertureRead_corrects :
    let t := after (.apertureRead .A 1#14) base
    (t.hpi .A).dataOut = 0x0078#16 ∧ t.upset 1 = 0#22 := by decide +kernel

/-- R117, R120: two bits of the word at offset 4 are upset; the read returns the data bits as they stand and marks. -/
theorem test_apertureRead_uncorrectable :
    let t := after (.apertureRead .A 2#14) base
    (t.hpi .A).dataOut = 0x0003#16 ∧ t.block 0 = ⟨.inUse, true⟩ ∧
      newest t .A = some (.notice .dataDamaged { v0 := 0x0100#16 } 0x2345#16) := by decide +kernel

/-- R105: a holder of a HELD buffer writes inside the reply range, here offsets 0 to 127; the low strobe stores byte o. -/
theorem test_apertureWrite_reply_range :
    let t := after (.apertureWrite .B 0x383F#14 ⟨0xBEEF#16, true, false⟩) base
    t.byteAt (256 * 5 + 126) = 0xEF#8 ∧ t.byteAt (256 * 5 + 127) = 0#8 ∧ (t.hpi .B).capture = none := by decide +kernel

/-- R105, R109: one word further the write is refused WRITE_DENIED and captured. -/
theorem test_apertureWrite_denied :
    ((after (.apertureWrite .B 0x3840#14 ⟨0xBEEF#16, true, true⟩) base).hpi .B).capture =
      some ⟨7, 128, .write, .writeDenied, false⟩ := by decide +kernel

/-- R161: ATTACH of an OFFLINE port is accepted and answered with quota and charge. -/
theorem test_attach :
    let t := (after (.attach .D) (base.setHpi .D { Hpi.reset with staging := Hpi.reset.staging.set 0 0x2001#16 })).hpi .D
    t.state = .online ∧ t.queue = [doneRec 0x20#8 .attach { v0 := 128#16 }] ∧ t.dataOut = 8#16 := by decide +kernel

/-- R161: ATTACH of an ONLINE port. -/
theorem test_attach_online :
    newest (after (.attach .B) (asks base .B (req .attach 1#8))) .B =
      some (.completion .wrongState 1#8 .attach {} 0x2345#16) := by decide +kernel

/-- R162, R164: DETACH begins the reclaim and writes no completion. -/
theorem test_detach :
    let t := after (.detach .A) (asks base .A (req .detach 2#8))
    (t.hpi .A).state = .reclaiming 0 ∧ (t.hpi .A).queue = [] ∧ t.chan 2 = .unbound := by decide +kernel

/-- R146, R31: the waiting ALLOCATE of C completes CANCELLED ahead of the CANCEL. -/
theorem test_cancel :
    let t := after (.cancel .C) (asks base .C { req .cancel 12#8 with count := 5 })
    (t.hpi .C).queue = [.completion .cancelled 5#8 .allocate {} 0x2345#16, doneRec 12#8 .cancel { v0 := 5#16 }] ∧
      t.allocWaits = [] ∧ t.reexamsDue = 2 := by decide +kernel

/-- R146: an OFFER cannot be cancelled. -/
theorem test_cancel_offer :
    newest (after (.cancel .A) (asks base .A { req .cancel 12#8 with count := 9 })) .A =
      some (.completion .notWaiting 12#8 .cancel {} 0x2345#16) := by decide +kernel

/-- 2.7: the first ALLOCATE after the clear takes descriptor 0 and blocks 0 onwards. -/
theorem test_allocate :
    let s := awake.setHpi .A (onHpi [⟨{ req .allocate 1#8 with count := 2 }, .pending⟩])
    let t := after (.allocate .A) s
    newest t .A = some (.completion .done 1#8 .allocate { blockCount := 2 } 0#16) ∧
      t.desc 0 = ⟨0#8, .filling (buf .A [0, 1])⟩ ∧ t.freeList.head? = some 2 := by decide +kernel

/-- The pool of the example of chapter 2: descriptor 7 held by D, 3 and 12 FREE, A and C waiting. -/
def twoWaiters : State :=
  { awake with
    ports :=
      ⟨onHpi [⟨req .allocate 9#8, .waiting⟩], onHpi [⟨{ req .allocate 2#8 with count := 1 }, .pending⟩],
        onHpi [⟨req .allocate 5#8, .waiting⟩], onHpi [⟨{ req .free 4#8 with handle := 0x0407#16 }, .pending⟩]⟩
    descs := Vector.ofFn (fun i =>
      if i = 3 then ⟨6#8, .free⟩ else if i = 12 then ⟨2#8, .free⟩
      else if i = 7 then ⟨4#8, .filling (buf .D [100, 101, 102])⟩ else ⟨0#8, .filling (buf .B [])⟩)
    freeList := [40, 41, 42]
    allocWaits := [⟨.C, 5#8, 4, some (.running 200)⟩, ⟨.A, 9#8, 2, none⟩] }

/-- The example of chapter 2: B's ALLOCATE of one block with wait limit 0 completes NO_BUFFER behind two waiters. -/
theorem test_allocate_no_buffer :
    newest (after (.allocate .B) twoWaiters) .B = some (.completion .noBuffer 2#8 .allocate {} 0#16) := by decide +kernel

/-- The example of chapter 2: D frees descriptor 7. -/
theorem test_free :
    let t := after (.free .D) twoWaiters
    newest t .D = some (.completion .done 4#8 .free { blockCount := 3 } 0#16) ∧ t.desc 7 = ⟨5#8, .free⟩ ∧
      t.freeList = [40, 41, 42, 100, 101, 102] := by decide +kernel

/-- The example of chapter 2: the re-examination serves C with 0x0603 and A with 0x0507. -/
theorem test_poolReexamination :
    let t := after .poolReexamination (after (.free .D) twoWaiters)
    newest t .C = some (.completion .done 5#8 .allocate { blockCount := 4, v0 := 0x0603#16 } 0#16) ∧
      newest t .A = some (.completion .done 9#8 .allocate { blockCount := 2, v0 := 0x0507#16 } 0#16) ∧
      t.freeList = [] ∧ t.desc 3 = ⟨6#8, .filling (buf .C [40, 41, 42, 100])⟩ := by decide +kernel

/-- R83: descriptor 5, COLLECTED by A, is FILLING again under the same handle. -/
theorem test_refill :
    let t := after (.refill .A) (asks base .A { req .refill 1#8 with handle := 0x0605#16 })
    newest t .A = some (doneRec 1#8 .refill { v0 := 0x0605#16, blockCount := 1 }) ∧
      t.desc 5 = ⟨6#8, .filling (buf .A [6])⟩ := by decide +kernel

/-- The example of chapter 12: D grants B 16 blocks; the quotas become 112 and 144. -/
theorem test_grant :
    let s := { awake with ports := ⟨onHpi [], onHpi [], onHpi [],
      onHpi [⟨{ req .grant 1#8 with peer := 2#3, count := 16 }, .pending⟩]⟩ }
    let t := after (.grant .D) s
    t.quotas = ⟨128, 144, 128, 112⟩ ∧ newest t .D = some (.completion .done 1#8 .grant { v0 := 112#16 } 0#16) ∧
      newest t .B = some (.notice .quotaGranted { v0 := 4#16, v1 := 16#16, v2 := 144#16 } 0#16) := by decide +kernel

/-- R123: a running record answers BUSY. -/
theorem test_retest_busy :
    newest (after (.retest .A) (asks base .A (req .retest 1#8))) .A =
      some (.completion .busy 1#8 .retest {} 0x2345#16) := by decide +kernel

/-- R123: an operation on one retired block begins. -/
theorem test_retest :
    let t := after (.retest .A) (asks { base with retest := none } .A (req .retest 1#8))
    t.retest = some ⟨some (.A, 1#8), 1, 1, 0, 20, []⟩ ∧
      (t.hpi .A).table.getLast? = some ⟨req .retest 1#8, .running⟩ := by decide +kernel

/-- R35, R178: 500 blocks free, 1 retired, 118 descriptors free; A's charge is 10, the head count 4, and a RETEST runs. -/
theorem test_queryPool :
    newest (after (.queryPool .A) (asks base .A (req .queryPool 1#8))) .A = some (doneRec 1#8 .queryPool
      { v0 := 500#16, v1 := 1#16, v2 := 118#16, v3 := 128#16, v4 := BitVec.ofNat 16 (9 + 4 * 1024 + 32768) }) := by
  decide +kernel

/-- R44: the channel is OFFERED and the consumer is told kind, limits and producer. -/
theorem test_offer :
    let r := { req .offer 1#8 with
      channel := 15#5, peer := 2#3, chanKind := 2#2, slot := 15#6, count := 32, length := 65535, limit := 7 }
    let t := after (.offer .A) (asks base .A r)
    t.chan 15 = .offered ⟨.roundTrip, .A, .B, 32, 65535, 15⟩ 1#8 (.running 7) ∧
      newest t .B = some (.notice .offerArrived { channel := 15#4, v0 := 0xF821#16, v1 := 65535#16, v2 := 7#16 }
        0x2345#16) := by decide +kernel

/-- R43: the fields are checked ahead of the channel's state. -/
theorem test_offer_busy :
    newest (after (.offer .A)
      (asks base .A { req .offer 1#8 with channel := 0#5, peer := 2#3, chanKind := 1#2, count := 1, limit := 1 })) .A =
        some (.completion .channelBusy 1#8 .offer {} 0x2345#16) := by decide +kernel

/-- R48: WITHDRAWN ahead of the WITHDRAW's DONE. -/
theorem test_withdraw :
    let t := after (.withdraw .A) (asks base .A { req .withdraw 1#8 with channel := 2#5 })
    (t.hpi .A).queue.drop 1 =
        [.completion .withdrawn 9#8 .offer { channel := 2#4, v0 := 3#16 } 0x2345#16,
          doneRec 1#8 .withdraw { channel := 2#4 }] ∧
      newest t .C = some (.notice .channelUnbound { channel := 2#4 } 0x2345#16) ∧ t.chan 2 = .unbound := by
  decide +kernel

/-- R46: the ACCEPT of C opens channel 2. -/
theorem test_accept :
    let t := after (.accept .C) (asks base .C { req .accept 1#8 with channel := 2#5 })
    t.chan 2 = .active ⟨⟨.roundTrip, .A, .C, 32, 10, 15⟩, false, false, 0#16, [], [], [], []⟩ ∧
      newest t .A = some (doneRec 9#8 .offer { channel := 2#4, v0 := 3#16 }) ∧
      newest t .C = some (doneRec 1#8 .accept { channel := 2#4, v0 := 0xF821#16, v1 := 10#16 }) := by decide +kernel

/-- R47: the OFFER completes REJECTED and no notice is raised. -/
theorem test_reject :
    let t := after (.reject .C) (asks base .C { req .reject 1#8 with channel := 2#5 })
    t.chan 2 = .unbound ∧
      newest t .A = some (.completion .rejected 9#8 .offer { channel := 2#4, v0 := 3#16 } 0x2345#16) ∧
      (t.hpi .C).queue = [doneRec 1#8 .reject { channel := 2#4 }] := by decide +kernel

/-- R53: B's close bounces the one buffer of channel 0, whose suspect block is retired; descriptor 2 stays HELD. -/
theorem test_close_consumer :
    let t := after (.close .B) (asks base .B { req .close 1#8 with channel := 0#5 })
    newest t .B = some (doneRec 1#8 .close { v0 := 1#16 }) ∧ t.desc 1 = ⟨3#8, .free⟩ ∧ t.retired = [20, 2] ∧
      (t.hpi .A).queue.drop 1 = [.notice .bounced { v0 := 1#16 } 0x2345#16,
        .notice .channelClosing { v0 := 2#16 } 0x2345#16] := by decide +kernel

/-- R52, R56: with nothing in transit a close by the producer unbinds channel 5. -/
theorem test_close_unbinds :
    let t := after (.close .A) (asks base .A { req .close 1#8 with channel := 5#5 })
    t.chan 5 = .unbound ∧ newest t .B = some (.notice .channelUnbound { channel := 5#4 } 0x2345#16) ∧
      (t.hpi .A).queue.drop 1 = [doneRec 1#8 .close { channel := 5#4, v1 := 1#16 },
        .notice .channelUnbound { channel := 5#4 } 0x2345#16] := by decide +kernel

/-- R57, R178: channel 0 is OPEN, ONE_WAY from A to B, depth 4, hold 100, renew 1, one queued, one held, next sequence 2. -/
theorem test_queryChannel :
    newest (after (.queryChannel .C) (asks base .C (req .queryChannel 1#8))) .C = some (doneRec 1#8 .queryChannel
      { v0 := BitVec.ofNat 16 (2 + 1 * 4 + 1 * 16 + 2 * 128 + 4 * 1024), v1 := 100#16,
        v2 := BitVec.ofNat 16 (1 + 1 * 64 + 1 * 4096), v4 := 2#16 }) := by decide +kernel

/-- R63: B's POST on channel 4 is handed to A's waiting TAKE. -/
theorem test_post_delivered :
    let t := after (.post .B) (asks base .B { req .post 1#8 with handle := 0x0009#16, channel := 4#5, length := 256 })
    newest t .B = some (doneRec 1#8 .post { channel := 4#4, v1 := 1#16 }) ∧
      newest t .A = some (doneRec 8#8 .take
        { channel := 4#4, blockCount := 1, v0 := 0x0009#16, v2 := BitVec.ofNat 16 (256 + 2 * 8192) }) ∧
      t.desc 9 = ⟨0#8, .held (buf .B [12]) ⟨256, 4, 0#16, none⟩ .A none 0⟩ := by decide +kernel

/-- R61: a reply close beyond the extent of 256 is refused RANGE. -/
theorem test_post_range :
    newest (after (.post .A) (asks base .A
      { req .post 1#8 with handle := 0x0100#16, channel := 5#5, replyOpen := 0, replyClose := 258 })) .A =
        some (.completion .range 1#8 .post { channel := 5#4 } 0x2345#16) := by decide +kernel

/-- R67, R8: the head of channel 0 is HELD with the full hold limit. -/
theorem test_take :
    let t := after (.take .B) (asks base .B { req .take 1#8 with channel := 0#5 })
    newest t .B = some (doneRec 1#8 .take
      { blockCount := 2, v0 := 0x0201#16, v1 := 1#16, v2 := BitVec.ofNat 16 (300 + 1 * 8192) }) ∧
      t.desc 1 = ⟨2#8, .held (buf .A [1, 2]) ⟨300, 0, 1#16, none⟩ .B (some (.running 100)) 0⟩ := by decide +kernel

/-- R68: on an empty queue a wait limit of 65535 joins with no timer. -/
theorem test_take_waits :
    (after (.take .B) (asks base .B { req .take 1#8 with channel := 5#5, limit := 65535 })).chan 5 =
      .active ⟨⟨.roundTrip, .A, .B, 1, 0, 0⟩, false, false, 0#16, [], [], [⟨1#8, none⟩], []⟩ := by decide +kernel

/-- R79: REPLIED with a reply length of 5. -/
theorem test_collect :
    let t := after (.collect .A) (asks base .A { req .collect 1#8 with channel := 1#5 })
    newest t .A = some (doneRec 1#8 .collect
      { channel := 1#4, blockCount := 1, v0 := 0x0403#16, v2 := BitVec.ofNat 16 (9 + 1 * 16384), v3 := 5#16 }) := by
  decide +kernel

/-- R79, R56: the last buffer of the closed channel 7 unbinds it, the completion ahead of the notice. -/
theorem test_collect_unbinds :
    let t := after (.collect .A) (asks base .A { req .collect 1#8 with channel := 7#5 })
    t.chan 7 = .unbound ∧ (t.hpi .A).queue.drop 1 = [doneRec 1#8 .collect
      { channel := 7#4, blockCount := 1, v0 := 0x0908#16, v1 := 4#16, v2 := BitVec.ofNat 16 (1 + 3 * 16384) },
        .notice .channelUnbound { channel := 7#4 } 0x2345#16] := by decide +kernel

/-- R71, R2: generation 255 is followed by 0. -/
theorem test_release :
    let t := after (.release .B) (asks base .B { req .release 1#8 with handle := 0xFF07#16 })
    t.desc 7 = ⟨0#8, .free⟩ ∧ (t.hpi .B).queue = [doneRec 1#8 .release { channel := 6#4 },
      .notice .channelUnbound { channel := 6#4 } 0x2345#16] := by decide +kernel

/-- R75, R76: a reply of the whole reply range of 128 bytes joins the return queue behind descriptor 3. -/
theorem test_returnBuffer :
    let t := after (.returnBuffer .B) (asks base .B { req .returnBuffer 1#8 with handle := 0x0504#16, length := 128 })
    t.returns 1 = [3, 4] ∧ (t.desc 4).life = .returning ⟨.A, [5], true⟩ ⟨9, 1, 2#16, some (0, 128)⟩ ⟨.replied, some 128⟩ ∧
      newest t .B = some (doneRec 1#8 .returnBuffer { channel := 1#4, v0 := 2#16 }) := by decide +kernel

/-- R75: one byte more is refused RANGE. -/
theorem test_returnBuffer_range :
    newest (after (.returnBuffer .B) (asks base .B
      { req .returnBuffer 1#8 with handle := 0x0504#16, length := 129 })) .B =
        some (.completion .range 1#8 .returnBuffer {} 0x2345#16) := by decide +kernel

/-- The example of chapter 5: the second RENEW completes RENEW_LIMIT with 40 ticks remaining and one renewal used. -/
theorem test_renew_limit :
    newest (after (.renew .B) (asks base .B { req .renew 1#8 with handle := 0x0302#16 })) .B =
      some (.completion .renewLimit 1#8 .renew { v0 := 0x0302#16, v1 := 40#16, v2 := 1#16 } 0x2345#16) := by
  decide +kernel

/-- R102: a MAP over a stale mapping replaces it. -/
theorem test_mapSlot :
    let t := after (.mapSlot .A) (asks base .A { req .mapSlot 1#8 with handle := 0x0100#16, slot := 1#6 })
    newest t .A = some (doneRec 1#8 .mapSlot { blockCount := 1, v0 := 1#16, v1 := 0x0100#16, v2 := 1#16 }) ∧
      (t.hpi .A).apertures[1] = some 0x0100#16 := by decide +kernel

/-- R101: a live slot is in use, even under the same handle. -/
theorem test_mapSlot_in_use :
    newest (after (.mapSlot .A) (asks base .A { req .mapSlot 1#8 with handle := 0x0100#16, slot := 0#6 })) .A =
      some (.completion .slotInUse 1#8 .mapSlot { v1 := 0x0100#16 } 0x2345#16) := by decide +kernel

/-- R103: slot 1 held a stale mapping, so the live indication is clear. -/
theorem test_unmapSlot :
    let t := after (.unmapSlot .A) (asks base .A { req .unmapSlot 1#8 with slot := 1#6 })
    newest t .A = some (doneRec 1#8 .unmapSlot { v0 := 1#16, v1 := 0x0201#16 }) ∧ (t.hpi .A).apertures[1] = none := by
  decide +kernel

/-- R85, R87. -/
theorem test_tick :
    let t := after .tick base
    t.ticks = 0x12346#32 ∧
      (t.desc 2).life = .held (buf .A [3]) ⟨7, 0, 0#16, none⟩ .B (some (.running 39)) 1 := by decide +kernel

/-- R87: the tick that would take the count from 1 to 0 makes the timer run out. -/
theorem test_tick_runs_out :
    (after .tick { base with allocWaits := [⟨.C, 5#8, 4, some (.running 1)⟩] }).allocWaits =
      [⟨.C, 5#8, 4, some .ranOut⟩] := by decide +kernel

/-- R30. -/
theorem test_allocationWaitExpiry :
    let t := after (.allocationWaitExpiry .C 5#8) base
    newest t .C = some (.completion .timedOut 5#8 .allocate {} 0x2345#16) ∧ t.reexamsDue = 2 := by decide +kernel

/-- R70. -/
theorem test_takeWaitExpiry :
    newest (after (.takeWaitExpiry 4 8#8) base) .A =
      some (.completion .timedOut 8#8 .take { channel := 4#4 } 0x2345#16) := by decide +kernel

/-- R81. -/
theorem test_collectWaitExpiry :
    newest (after (.collectWaitExpiry 3 7#8) base) .A =
      some (.completion .timedOut 7#8 .collect { channel := 3#4 } 0x2345#16) := by decide +kernel

/-- R49. -/
theorem test_offerExpiry :
    let t := after (.offerExpiry 2) base
    newest t .A = some (.completion .expired 9#8 .offer { channel := 2#4, v0 := 3#16 } 0x2345#16) ∧
      newest t .C = some (.notice .channelUnbound { channel := 2#4 } 0x2345#16) := by decide +kernel

/-- R93: the waiting COLLECT receives the revoked buffer, and the consumer receives REVOKED. -/
theorem test_holdExpiry_round_trip :
    let t := after (.holdExpiry 6) base
    newest t .A = some (doneRec 7#8 .collect
        { channel := 3#4, blockCount := 1, v0 := 0x0706#16, v2 := BitVec.ofNat 16 (1 + 3 * 16384) }) ∧
      newest t .B = some (.notice .revoked { channel := 3#4, v0 := 0x0706#16 } 0x2345#16) := by decide +kernel

/-- R92, 5.6: on a CLOSING ONE_WAY channel REVOKED is followed by CHANNEL_UNBOUND. -/
theorem test_holdExpiry_one_way :
    ((after (.holdExpiry 7) base).hpi .B).queue =
      [.notice .revoked { channel := 6#4, v0 := 0xFF07#16 } 0x2345#16,
        .notice .channelUnbound { channel := 6#4 } 0x2345#16] := by decide +kernel

/-- R125, R126: the last block passes and the RETEST completes with tested 1, passed 1 and none still retired. -/
theorem test_blockTestEnd :
    let t := after .blockTestEnd { base with stuckCells := [] }
    t.retired = [] ∧ t.freeList.getLast? = some 20 ∧ t.retest = none ∧
      newest t .B = some (doneRec 3#8 .retest { v0 := 1#16, v1 := 1#16 }) := by decide +kernel

/-- R124: an upset of word 1 fails the block between the write of 0x5555 (operation 1) and its read-back (operation 129),
does not once that word has been read back, and stays after the closing write (operation 769). -/
theorem test_blockTestEnd_upset :
    let upset := fun m => { base with
      stuckCells := [], retest := some ⟨none, 1, 1, 0, 20, [⟨2561, 1#22, 0#22, m⟩]⟩ }
    (after .blockTestEnd (upset 2)).retired = [20] ∧ (after .blockTestEnd (upset 129)).retired = [20] ∧
      (after .blockTestEnd (upset 130)).retired = [] ∧ (after .blockTestEnd (upset 769)).upsets = [(1, 1#22), (2, 3#22)] ∧
      (after .blockTestEnd (upset 770)).upsets = [(1, 1#22), (2, 3#22), (2561, 1#22)] := by decide +kernel

/-- R168: the step at index 0 frees the FILLING buffer of the departing port. -/
theorem test_reclaimWalkStep :
    let t := after (.reclaimWalkStep .A) (base.setHpi .A { Hpi.reset with state := .reclaiming 0 })
    t.desc 0 = ⟨2#8, .free⟩ ∧ (t.hpi .A).state = .reclaiming 1 := by decide +kernel

/-- R168: the step at index 127 makes the port OFFLINE. -/
theorem test_reclaimWalkStep_last :
    ((after (.reclaimWalkStep .A) (base.setHpi .A { Hpi.reset with state := .reclaiming 127 })).hpi .A).state =
      .offline := by
  decide +kernel

/-- R166, R54, R179: the departing consumer's channel 5 unbinds; channel 0 closes with a bounce. -/
theorem test_portResetAssert :
    let t := after (.portResetAssert .B) base
    (t.hpi .B).state = .reclaiming 0 ∧ t.chan 5 = .unbound ∧
      ((t.hpi .A).queue.drop 1).take 2 = [.notice .bounced { v0 := 1#16 } 0x2345#16,
        .notice .peerDetached { v0 := 2#16 } 0x2345#16] := by decide +kernel

/-- R163: the release leaves the port state. -/
theorem test_portResetRelease :
    let t := (after (.portResetRelease .D) (base.setHpi .D { Hpi.reset with resetIn := true })).hpi .D
    t = Hpi.reset := by decide +kernel

/-- R38, R171. -/
theorem test_deviceReset :
    let t := after .deviceReset base
    t.retired = [] ∧ t.quotas = ⟨128, 128, 128, 128⟩ ∧ t.desc 7 = ⟨0#8, .free⟩ ∧ t.hpi .A = Hpi.reset ∧
      t.device = .initialising := by decide +kernel

/-- R36: every word is stored as 0x0000. -/
theorem test_memoryClear :
    let t := after .memoryClear (after .deviceReset base)
    t.mem = [] ∧ t.upsets = [] ∧ t.resetIn = false ∧ t.device = .initialising := by decide +kernel

/-- R36. -/
theorem test_deviceReady : (after .deviceReady { awake with device := .initialising }).device = .ready := by decide +kernel

/-- R114: an error of two bits is always found as an uncorrectable error. -/
theorem test_storedBitUpset :
    (after (.storedBitUpset 10 0x200001#22 0#22 0#22) base).finding 10 = .uncorrectable := by decide +kernel

/-! ### Witnesses: for each statement with hypotheses, a state and operands that meet them together -/

/-- Every command answers next in every state. -/
theorem exec_answers (c : Instr) (s : State) : ∃ t, exec c s = .next t := by cases c <;> exact ⟨_, rfl⟩

/-- A request of `base` with tag 1, of an ONLINE port, is presented whatever its fields. -/
theorem base_presents {p : Port} {r : Request} (hp : p ≠ .D) (ht : r.tag = 1#8) : (asks base p r).presents r.kind p r := by
  obtain ⟨kind, tag, _, _, _, _, _, _, _, _, _, _⟩ := r
  subst ht
  cases p
  · exact ⟨rfl, rfl, rfl, (by decide : [9#8, 7#8, 8#8, 1#8].Nodup)⟩
  · exact ⟨rfl, rfl, rfl, (by decide : [3#8, 1#8].Nodup)⟩
  · exact ⟨rfl, rfl, rfl, (by decide : [5#8, 1#8].Nodup)⟩
  · exact absurd rfl hp

theorem witness_StepRunsFrontCommand :
    { base with pending := [.tick, .deviceReady] }.pending = .tick :: [.deviceReady] ∧ base.pending = [] := ⟨rfl, rfl⟩

/-- For the statements about every command: all the laws hold of `base`, and TICK answers next there. -/
theorem witness_invariants :
    (∃ t, exec .tick base = .next t) ∧ base.portLaw ∧ base.tagLaw ∧ base.quotaLaw ∧ base.demandLaw ∧ base.blockLaw ∧
      base.markLaw ∧ base.retestLaw ∧ base.queueLaw ∧ base.transitLaw ∧ base.depthLaw ∧ base.closingLaw ∧
      base.sequenceLaw ∧ base.waitLaw ∧ base.endsLaw ∧ base.waiterLaw ∧ base.walkLaw ∧ base.reexamLaw ∧ base.resetLaw ∧
      base.memoryWf :=
  ⟨exec_answers _ _, witness_portLaw.1, witness_portLaw.2, witness_quotaLaw.1, witness_quotaLaw.2, witness_blockLaw,
    witness_markLaw.1, witness_markLaw.2, witness_queueLaw, witness_transitLaw, witness_depthLaw.1, witness_depthLaw.2,
    witness_sequenceLaw.1, witness_sequenceLaw.2.1, witness_sequenceLaw.2.2, witness_waiterLaw.1, witness_waiterLaw.2,
    witness_resetLaw.2.1, witness_resetLaw.1, witness_resetLaw.2.2⟩

/-- For the clauses of `ClockAndInputsMoveOnlyAtTheirEvents`: FREE is none of the commands they except. -/
theorem witness_ClockAndInputs :
    (∃ t, exec (.free .A) base = .next t) ∧ Instr.free .A ≠ .tick ∧ Instr.free .A ≠ .deviceReset ∧
      Instr.free .A ≠ .deviceReady ∧ Instr.free .A ≠ .memoryClear ∧ Instr.free .A ≠ .portResetAssert .A ∧
      Instr.free .A ≠ .portResetRelease .A ∧ Instr.free .A ≠ .submission .A ∧ Instr.free .A ≠ .attach .A ∧
      Instr.free .A ≠ .tickLowRead .A ∧ (∀ a, Instr.free .A ≠ .apertureRead .A a) :=
  ⟨exec_answers _ _, by decide, by decide, by decide, by decide, by decide, by decide, by decide, by decide, by decide,
    fun a => by simp⟩

/-- Port A can write word 0 and port B word 64 * 10 of buffer memory in `base`, where the law of blocks holds. -/
theorem witness_OneWriterPerWord : base.blockLaw ∧ base.canWrite .A 0 ∧ base.canWrite .B 640 :=
  ⟨witness_blockLaw, ⟨0x0000#14, 0, by decide +kernel, by decide +kernel⟩,
    ⟨0x3800#14, 4, by decide +kernel, by decide +kernel⟩⟩

theorem witness_GenerationCountsLives :
    (∃ t, exec .deviceReset base = .next t) ∧ (∃ t, exec (.holdExpiry 7) base = .next t) ∧
      Instr.holdExpiry 7 ≠ .deviceReset ∧ (base.desc 7).state ≠ .free ∧
      ((after (.holdExpiry 7) base).desc 7).state = .free ∧ ((after (.holdExpiry 7) base).desc 6).state ≠ .free :=
  ⟨exec_answers _ _, exec_answers _ _, by decide, by decide +kernel, by decide +kernel, by decide +kernel⟩

theorem witness_DescriptorLives :
    (∃ t, exec (.holdExpiry 6) base = .next t) ∧ (base.desc 6).state ≠ .free ∧
      ((after (.holdExpiry 6) base).desc 6).state = .collected ∧ (base.desc 4).damaged = true ∧
      ((after (.holdExpiry 6) base).desc 4).state ≠ .free :=
  ⟨exec_answers _ _, by decide +kernel, by decide +kernel, by decide +kernel, by decide +kernel⟩

theorem witness_ChannelLives :
    (∃ t, exec .tick base = .next t) ∧ (base.chan 6).state ≠ .unbound ∧ ((after .tick base).chan 6).state ≠ .unbound ∧
      base.chan 6 = .active chan6 ∧ (after .tick base).chan 6 = .active chan6 ∧ chan6.closedProducer = true ∧
      base.chan 7 = .active chan7 ∧ (after .tick base).chan 7 = .active chan7 ∧ chan7.closedConsumer = true ∧
      base.endsLaw :=
  ⟨exec_answers _ _, by decide +kernel, by decide +kernel, by decide +kernel, by decide +kernel, rfl,
    by decide +kernel, by decide +kernel, rfl, witness_sequenceLaw.2.2⟩

/-! ### The port bus -/

/-- Answers 3 NOT_ONLINE of D and 4 BAD_KIND of A (kinds 0 and 24, with 1 and 23 on the other side) change nothing. -/
theorem witness_SubmissionAnswers :
    base.busTaken .A = true ∧ base.answerByTable .A = 0x0004#16 ∧ base.answerByTable .D = 0x0003#16 ∧
      (base.setHpi .A { baseA with staging := baseA.staging.set 0 24#16 }).answerByTable .A = 0x0004#16 ∧
      (base.setHpi .A { baseA with staging := baseA.staging.set 0 23#16 }).answerByTable .A = 0x0008#16 ∧
      (base.setHpi .A { baseA with staging := baseA.staging.set 0 0x0901#16 }).answerByTable .A = 0x0005#16 ∧
      State.reset.busTaken .A = false := by
  unfold State.answerByTable
  repeat' apply And.intro
  all_goals decide +kernel

theorem witness_AcceptedSubmissionsAndAttach :
    let s := base.setHpi .A { baseA with staging := baseA.staging.set 0 23#16 }
    let d := base.setHpi .D { Hpi.reset with staging := Hpi.reset.staging.set 0 0x2001#16 }
    (s.busTaken .A = true ∧ s.online .A = true ∧ s.answerByTable .A = 0x0008#16) ∧
      (d.busTaken .D = true ∧ d.device = .ready ∧ (d.hpi .D).state = .offline ∧ (d.hpi .D).bare ∧
        (d.hpi .D).kindField = 1) ∧
      (asks base .B (req .attach 1#8)).presents .attach .B (req .attach 1#8) := by
  unfold State.answerByTable
  repeat' first | (intros; exact base_presents (by decide) rfl) | apply And.intro
  all_goals decide +kernel

/-- Staging words 0 and 7, the submit word 0x4008 just behind them and the last word of the window. -/
theorem witness_WindowWrites :
    base.busTaken .D = true ∧ (0x4000#15).toNat = 0x4000 + (0 : Fin 8).val ∧ (0x4007#15).toNat = 0x4000 + (7 : Fin 8).val ∧
      (Instr.registerWrite .A 0x4008#15 ⟨0, true, true⟩).wf = true ∧ 0x4008 ≤ (0x4008#15).toNat ∧
      (Instr.registerWrite .A 0x7FFF#15 ⟨0, true, true⟩).wf = true ∧ 0x4008 ≤ (0x7FFF#15).toNat ∧
      State.reset.busTaken .A = false := by decide +kernel

theorem witness_ConsumeRemovesTheHead :
    base.busTaken .A = true ∧ (base.hpi .A).queue = [.completion .done 1#8 .attach { v0 := 128#16 } 0#16] ∧
      (base.hpi .A).summaryEmpty = true ∧ { baseA with sumKinds := 0x10#11 }.summaryEmpty = false ∧
      State.reset.busTaken .A = false ∧ (base.hpi .B).queue = [] ∧ base.online .D = false := by decide +kernel

/-- Port D's reset input asserted in `base`. -/
def heldD : State := base.setHpi .D { Hpi.reset with resetIn := true }

theorem witness_StatusEnableAndAttention :
    base.busTaken .A = true ∧ (base.hpi .A).law ∧ (base.hpi .D).law ∧ State.reset.busTaken .A = false ∧
      base.attention .A = true ∧ (heldD.resetLaw ∧ (heldD.hpi .D).resetIn = true) ∧
      (∃ t, exec .deviceReset base = .next t) ∧ base.online .A = true ∧
      ((after (.portResetAssert .A) base).hpi .A).state = .reclaiming 0 := by
  refine ⟨by decide +kernel, witness_portLaw.1 .A, witness_portLaw.1 .D, by decide +kernel, by decide +kernel,
    ⟨⟨by decide +kernel, fun h => absurd h (by decide +kernel), fun p => ?_⟩, by decide +kernel⟩, exec_answers _ _,
    by decide +kernel, by decide +kernel⟩
  cases p <;> decide +kernel

theorem witness_TickWords :
    base.busTaken .A = true ∧ heldD.busTaken .D = false ∧ (∃ t, exec .deviceReset base = .next t) ∧
      (∃ t, exec (.detach .A) base = .next t) ∧ Instr.detach .A ≠ .deviceReset ∧ Instr.detach .A ≠ .tickLowRead .A :=
  ⟨by decide +kernel, by decide +kernel, exec_answers _ _, exec_answers _ _, by decide, by decide⟩

/-! ### Apertures -/

/-- Slot 3 is empty, slot 1 stale, offset 256 of slot 0 out of extent where 254 is not, slot 2 not writable, offset 128 of
B's slot 7 not writable where 126 is, and port D is OFFLINE. -/
theorem witness_ApertureFaults :
    base.busTaken .A = true ∧ base.online .A = true ∧ (base.hpi .A).apertures[apertureSlot 0x1800#14] = none ∧
      ((base.hpi .A).apertures[apertureSlot 0x0800#14] = some 0x0201#16 ∧ base.live .A 0x0201#16 = false) ∧
      ((base.hpi .A).apertures[apertureSlot 0x0080#14] = some 0x0100#16 ∧ base.live .A 0x0100#16 = true ∧
        (base.desc (handleIx 0x0100#16)).extent ≤ apertureOffset 0x0080#14 ∧
        apertureOffset 0x007F#14 < (base.desc (handleIx 0x0100#16)).extent) ∧
      ((base.hpi .A).apertures[apertureSlot 0x1000#14] = some 0x0605#16 ∧ base.live .A 0x0605#16 = true ∧
        apertureOffset 0x1000#14 < (base.desc (handleIx 0x0605#16)).extent ∧
        (base.desc (handleIx 0x0605#16)).grants .write (apertureOffset 0x1000#14) = false) ∧
      (base.live .B 0x0504#16 = true ∧ (base.desc 4).grants .write (apertureOffset 0x3840#14) = false ∧
        (base.desc 4).grants .write (apertureOffset 0x383F#14) = true) ∧ base.online .D = false := by decide +kernel

/-- Offset 0 without an error, offset 2 with one upset bit, both readable and writable by A. -/
theorem witness_ApertureAccessServed :
    base.memoryWf ∧ base.reaches .A 0#14 .read 0x0100#16 0 ∧ base.reaches .A 1#14 .read 0x0100#16 0 ∧
      base.reaches .A 1#14 .write 0x0100#16 0 ∧ base.wordErrors ((base.desc 0).wordAt (apertureOffset 0#14)) = 0#22 ∧
      bitCount (base.wordErrors ((base.desc 0).wordAt (apertureOffset 1#14))) = 1 ∧
      bitCount (base.wordErrors ((base.desc 0).wordAt (apertureOffset 2#14))) = 2 ∧
      base.finding ((base.desc 0).wordAt (apertureOffset 0#14)) = .noError ∧
      base.finding ((base.desc 0).wordAt (apertureOffset 1#14)) = .corrected 0x0078#16 := by
  refine ⟨witness_resetLaw.2.2, ?_⟩
  repeat' apply And.intro
  all_goals decide +kernel

/-- Offset 4 with two upset bits. -/
theorem witness_UncorrectableErrorsMark :
    base.memoryWf ∧ base.reaches .A 2#14 .read 0x0100#16 0 ∧ base.reaches .A 2#14 .write 0x0100#16 0 ∧
      base.finding ((base.desc 0).wordAt (apertureOffset 2#14)) = .uncorrectable := by
  refine ⟨witness_resetLaw.2.2, ?_⟩
  repeat' apply And.intro
  all_goals decide +kernel

/-- A MAP or UNMAP request of `base`. -/
def mapReq (h : Word) (slot : BitVec 6) : Request := { req .mapSlot 1#8 with handle := h, slot := slot }

/-- For each way a MAP or an UNMAP ends, one that ends so: bit 7 set, slot 8 and slot 7, a stale handle, another port's
buffer, a live slot, a stale slot, an empty slot. -/
theorem witness_MapAndUnmap :
    (∀ h k, (asks base .A (mapReq h k)).presents .mapSlot .A (mapReq h k)) ∧
      (0x0180#16).getLsbD 7 = true ∧ 8 ≤ (8#6).toNat ∧ (7 : Fin 8).val = (7#6).toNat ∧
      base.stale 0x0200#16 = true ∧ base.stale 0x0504#16 = false ∧ (base.desc 4).holder = some .B ∧
      (base.hpi .A).apertures[0] = some 0x0100#16 ∧ base.live .A 0x0100#16 = true ∧
      (base.hpi .A).apertures[1] = some 0x0201#16 ∧ base.live .A 0x0201#16 = false ∧ (base.hpi .A).apertures[7] = none ∧
      (∀ k, (asks base .A { req .unmapSlot 1#8 with slot := k }).presents .unmapSlot .A
        { req .unmapSlot 1#8 with slot := k }) := by
  repeat' first | (intros; exact base_presents (by decide) rfl) | apply And.intro
  all_goals decide +kernel

/-! ### Requests -/

/-- Each kind that names a handle, and handles that fail each of the four checks: bit 7, stale, not the holder, and a
descriptor in another state. -/
theorem witness_HandleChecksInOrder :
    (∀ k h, (asks base .A { req k 1#8 with handle := h, channel := 15#5, slot := 7#6 }).presents k .A
      { req k 1#8 with handle := h, channel := 15#5, slot := 7#6 }) ∧
      (0x0180#16).getLsbD 7 = true ∧ base.stale 0x0200#16 = true ∧ base.stale 0x0504#16 = false ∧
      (base.desc 4).holder ≠ some .A ∧ (base.desc 0).state = .filling ∧
      (base.desc 5).state = .collected := by
  repeat' first | (intros; exact base_presents (by decide) rfl) | apply And.intro
  all_goals decide +kernel

theorem witness_RefusalChangesNothingElse :
    let s := asks base .B (req .attach 1#8)
    s.presents .attach .B (req .attach 1#8) ∧ (∃ t, exec (presentation .attach .B) s = .next t) ∧
      ResultCode.wrongState.isOutcome = false ∧
      ((after (.attach .B) s).hpi .B).queue = (s.hpi .B).queue ++ [.completion .wrongState 1#8 .attach {} s.stamp] := by
  exact ⟨base_presents (by decide) rfl, exec_answers _ _, rfl, by decide +kernel⟩

/-- A CANCEL of tag `n`, of a value given as a word. -/
def cancelReq (n : Word) : Request := { req .cancel 1#8 with count := n }

/-- A target of 256 and one of 255; a waiting OFFER; a waiting ALLOCATE, TAKE and COLLECT whose entries stand. -/
theorem witness_CancelRemovesTheTarget :
    (∀ n, (asks base .A (cancelReq n)).presents .cancel .A (cancelReq n)) ∧
      (∀ n, (asks base .C (cancelReq n)).presents .cancel .C (cancelReq n)) ∧ 255 < (256#16).toNat ∧
      (255#16).toNat ≤ 255 ∧ (∀ e ∈ (base.hpi .A).table, e.req.tag.toNat ≠ 255) ∧
      (∀ e ∈ (base.hpi .A).table, e.req.tag.toNat = 9 → e.req.tag = 1#8 ∨ e.state ≠ .waiting ∨ e.req.kind = .offer) ∧
      (∃ e ∈ (base.hpi .C).table, e.req.tag.toNat = 5 ∧ e.state = .waiting ∧ e.req.kind = .allocate) ∧
      (∃ x ∈ base.allocWaits, x.port = .C ∧ x.tag = 5#8) ∧
      (∃ e ∈ (base.hpi .A).table, e.req.tag.toNat = 8 ∧ e.state = .waiting ∧ e.req.kind = .take ∧
        base.chan e.req.chan = .active chan4) ∧ (∃ w ∈ chan4.takeWaits, w.tag = 8#8) ∧
      (∃ e ∈ (base.hpi .A).table, e.req.tag.toNat = 7 ∧ e.state = .waiting ∧ e.req.kind = .collect ∧
        base.chan e.req.chan = .active chan3) ∧ (∃ w ∈ chan3.collectWaits, w.tag = 7#8) := by
  repeat' first | (intros; exact base_presents (by decide) rfl) | apply And.intro
  all_goals decide +kernel

theorem witness_EventRecordLayout :
    ({ blockCount := 16 } : Vals).blockCount ≤ 16 ∧ base.busTaken .A = true ∧ 7 < 8 ∧
      (⟨4096, 0, 0#16, none⟩ : Traffic).length ≤ 4096 ∧ (⟨7, 0xFFE, .write, .stale, true⟩ : Capture).offset ≤ 0xFFE ∧
      offer2.depthLimit ≤ 32 ∧ offer2.renewLimit ≤ 15 := by decide +kernel

/-! ### Reclaim and the resets -/

theorem witness_ReclaimStartDropsHoldings :
    (asks base .A (req .detach 1#8)).presents .detach .A (req .detach 1#8) ∧ base.online .A = true ∧
      base.chan 2 = .offered offer2 9#8 .ranOut ∧ base.chan 0 = .active chan0 ∧
      (∀ k : ChanIx, 1 ∉ base.returns k ∧ 0 ∉ base.forward k ∧ 0 ∉ base.returns k) ∧ base.online .D = false ∧
      (∀ m, (base.chan 8).params? = some m → m.producer ≠ .A ∧ m.consumer ≠ .A) := by
  refine ⟨base_presents (by decide) rfl, by decide +kernel, by decide +kernel, by decide +kernel,
    by decide +kernel, by decide +kernel, forall_some (by decide +kernel)⟩

/-- One bound channel, channel 2, and four descriptors of A with a block each; ports as in `base`. -/
def pipe (a : Chan) (l0 l1 l2 l3 : Life) : State :=
  { base with
    chans := State.reset.chans.set 2 a
    descs := (((State.reset.descs.set 0 ⟨0#8, l0⟩).set 1 ⟨0#8, l1⟩).set 2 ⟨0#8, l2⟩).set 3 ⟨0#8, l3⟩
    freeList := (List.finRange 512).filter (fun b => decide (4 ≤ b.val))
    retired := []
    retest := none }

/-- A descriptor of `pipe` with block `n` that is not on the channel. -/
def idle (n : BlockIx) : Life := .filling (buf .A [n])

/-- A descriptor of `pipe` with block `n` in the forward queue. -/
def queued (n : BlockIx) : Life := .queued (buf .A [n]) ⟨0, 2, 0#16, none⟩

/-- A descriptor of `pipe` with block `n` held by B, its hold timer run out. -/
def held (n : BlockIx) : Life := .held (buf .A [n]) ⟨0, 2, 0#16, none⟩ .B (some .ranOut) 0

/-- A descriptor of `pipe` with block `n` in the return queue. -/
def returning (n : BlockIx) : Life := .returning (buf .A [n]) ⟨0, 2, 0#16, none⟩ ⟨.replied, some 0⟩

/-- A channel from A to B of this kind, OPEN, with these queues and nothing waiting. -/
def lane (kind : ChanKind) (forward returns : List DescIx) : Active :=
  ⟨⟨kind, .A, .B, 4, 60, 0⟩, false, false, 0#16, forward, returns, [], []⟩

/-- COLLECT 7, which stands in A's request table in `base`. -/
def collect7 : Wait := ⟨7#8, none⟩

/-- The other channels of `pipe` have no ends. -/
theorem pipe_others {a : Chan} {l0 l1 l2 l3 : Life} (p : Port) (j : ChanIx) (h : j ≠ 2) :
    ∀ m, ((pipe a l0 l1 l2 l3).chan j).params? = some m → m.producer ≠ p ∧ m.consumer ≠ p := by
  intro m hm
  have h2 : 2 ≠ j.val := fun e => h (Fin.ext e.symm)
  have hu : (pipe a l0 l1 l2 l3).chan j = .unbound := by
    show (Vector.set State.reset.chans 2 a)[j.val] = .unbound
    rw [Vector.getElem_set_ne _ _ h2]
    simp [State.reset]
  rw [hu] at hm
  cases hm

theorem pipe_blockLaw {a : Chan} {l0 l1 l2 l3 : Life} (hl : (pipe a l0 l1 l2 l3).lentBlocks = [0, 1, 2, 3]) :
    (pipe a l0 l1 l2 l3).blockLaw := by
  intro b
  have hf : (pipe a l0 l1 l2 l3).freeList = (List.finRange 512).filter (fun b => decide (4 ≤ b.val)) := by
    simp only [pipe]
  have hr : (pipe a l0 l1 l2 l3).retired = [] := by simp only [pipe]
  rw [List.count_append, List.count_append, hf, hr, hl, count_filter_finRange]
  have h : ∀ b : BlockIx, (if decide (4 ≤ b.val) then 1 else 0) + ([] : List BlockIx).count b +
      [0, 1, 2, 3].count b = 1 := by decide +kernel
  exact h b

theorem setHpi_blockLaw {s : State} {p : Port} {h : Hpi} (hb : s.blockLaw) : (s.setHpi p h).blockLaw := hb

/-- An OPEN channel with a buffer queued, one held and one returning. -/
def full : State := pipe (.active (lane .roundTrip [0] [2])) (queued 0) (held 1) (returning 2) (idle 3)

/-- An OPEN ONE_WAY channel with two TAKEs waiting. -/
def taking : State :=
  (pipe (.active { lane .oneWay [] [] with takeWaits := [⟨1#8, none⟩, ⟨2#8, none⟩] })
    (idle 0) (idle 1) (idle 2) (idle 3)).setHpi .B (onHpi [⟨req .take 1#8, .waiting⟩, ⟨req .take 2#8, .waiting⟩])

/-- A channel of this kind with two buffers queued and, on ROUND_TRIP, one COLLECT waiting. -/
def flowing (kind : ChanKind) : State :=
  pipe (.active { lane kind [0, 3] [] with collectWaits := if kind = .oneWay then [] else [collect7] })
    (queued 0) (idle 1) (idle 2) (queued 3)

/-- A ROUND_TRIP channel closed by its consumer, its last buffer held, a COLLECT waiting. -/
def lastHeld : State :=
  pipe (.active { lane .roundTrip [] [] with closedConsumer := true, collectWaits := [collect7] })
    (idle 0) (held 1) (idle 2) (idle 3)

/-- The same with no COLLECT waiting and the producer gone. -/
def lastHeldGone : State :=
  (pipe (.active { lane .roundTrip [] [] with closedConsumer := true }) (idle 0) (held 1) (idle 2) (idle 3)).setHpi .A
    Hpi.reset

theorem full_laws : full.queueLaw ∧ full.blockLaw :=
  ⟨by unfold State.queueLaw; decide +kernel, pipe_blockLaw (by decide +kernel)⟩

theorem taking_laws : taking.queueLaw ∧ taking.blockLaw :=
  ⟨by unfold State.queueLaw; decide +kernel, setHpi_blockLaw (pipe_blockLaw (by decide +kernel))⟩

theorem flowing_laws (kind : ChanKind) : (flowing kind).queueLaw ∧ (flowing kind).blockLaw := by
  cases kind <;> exact ⟨by unfold State.queueLaw; decide +kernel, pipe_blockLaw (by decide +kernel)⟩

theorem lastHeld_laws : lastHeld.queueLaw ∧ lastHeld.blockLaw :=
  ⟨by unfold State.queueLaw; decide +kernel, pipe_blockLaw (by decide +kernel)⟩

theorem pipe_endsLaw (a : Chan) (l0 l1 l2 l3 : Life) (h : ∀ m, a.params? = some m → m.producer ≠ m.consumer) :
    (pipe a l0 l1 l2 l3).endsLaw := by
  intro k m hm
  by_cases hk : k = 2
  · subst hk; exact h m hm
  · exact absurd rfl (pipe_others m.producer k hk m hm).1

/-- For each kind of channel a state in which the premises hold: `base`, where A and B are ends of several; an offer; a
producer that departs with buffers in transit, and with two TAKEs waiting and none; and a consumer that departs from a
ONE_WAY channel with two buffers queued, from a ROUND_TRIP one with two queued and one COLLECT waiting, and from one it has
closed. -/
theorem witness_ReclaimStartTellsTheOtherEnd :
    let offer := pipe (.offered offer2 9#8 (.running 1)) (idle 0) (idle 1) (idle 2) (idle 3)
    let asked := fun (s : State) (q : Port) =>
      (∀ x ∈ s.waitsOf q, s.hasRequest q x.1 x.2) ∧ ((s.waitsOf q).map Prod.fst).Nodup
    ((asks full .A (req .detach 1#8)).presents .detach .A (req .detach 1#8) ∧ base.queueLaw ∧ base.endsLaw ∧
      base.waitsOf .A = [(9#8, .offer), (7#8, .collect), (8#8, .take)] ∧ ∀ q, base.online q = true → asked base q) ∧
      (offer.online .A = true ∧ offer.online .C = true ∧ offer.queueLaw ∧ offer.endsLaw ∧ asked offer .A ∧
        asked offer .C) ∧
      (full.online .A = true ∧ full.queueLaw ∧ full.endsLaw ∧ asked full .B) ∧
      (taking.online .A = true ∧ taking.queueLaw ∧ taking.endsLaw ∧ asked taking .B ∧ taking.inTransit 2 = 0) ∧
      (∀ kind, (flowing kind).online .B = true ∧ (flowing kind).queueLaw ∧ (flowing kind).endsLaw ∧
        asked (flowing kind) .A) ∧
      (lastHeld.online .B = true ∧ lastHeld.queueLaw ∧ lastHeld.endsLaw ∧ asked lastHeld .A) := by
  refine ⟨⟨?_, witness_queueLaw, witness_sequenceLaw.2.2, by decide +kernel, fun q _ => ?_⟩,
    ⟨by decide +kernel, by decide +kernel, by unfold State.queueLaw; decide +kernel,
      pipe_endsLaw _ _ _ _ _ (by simp [Chan.params?, offer2]), ?_, ?_⟩,
    ⟨by decide +kernel, full_laws.1, pipe_endsLaw _ _ _ _ _ (by simp [Chan.params?, lane]), ?_⟩,
    ⟨by decide +kernel, taking_laws.1, ?_, ?_, by decide +kernel⟩,
    fun kind => ⟨by cases kind <;> decide +kernel, (flowing_laws kind).1,
      pipe_endsLaw _ _ _ _ _ (by simp [Chan.params?, lane]), ?_⟩,
    ⟨by decide +kernel, lastHeld_laws.1, pipe_endsLaw _ _ _ _ _ (by simp [Chan.params?, lane]), ?_⟩⟩
  · unfold State.presents; decide +kernel
  · unfold State.hasRequest; cases q <;> decide +kernel
  · unfold State.hasRequest; decide +kernel
  · unfold State.hasRequest; decide +kernel
  · unfold State.hasRequest; decide +kernel
  · have h : (pipe (.active { lane .oneWay [] [] with takeWaits := [⟨1#8, none⟩, ⟨2#8, none⟩] })
        (idle 0) (idle 1) (idle 2) (idle 3)).endsLaw := pipe_endsLaw _ _ _ _ _ (by simp [Chan.params?, lane])
    exact h
  · unfold State.hasRequest; decide +kernel
  · unfold State.hasRequest; cases kind <;> decide +kernel
  · unfold State.hasRequest; decide +kernel

/-- A producer that departs from a channel with a return queue, and a consumer from one that gives its buffers back and from
one that does not; in `base` C's ALLOCATE is the head of the allocation wait list. -/
theorem witness_ReclaimStartFrees :
    (base.queueLaw ∧ base.blockLaw ∧ base.endsLaw ∧ base.online .C = true ∧ base.allocWaits.head?.map (·.port) = some .C) ∧
      (full.queueLaw ∧ full.blockLaw ∧ full.endsLaw ∧ full.online .A = true ∧ full.freedByReclaim .A = [2]) ∧
      ∀ kind, (flowing kind).queueLaw ∧ (flowing kind).blockLaw ∧ (flowing kind).endsLaw ∧
        (flowing kind).online .B = true ∧
        (flowing kind).freedByReclaim .B = (if kind = .oneWay then [0, 3] else []) := by
  refine ⟨⟨witness_queueLaw, witness_blockLaw, witness_sequenceLaw.2.2, by decide +kernel, by decide +kernel⟩,
    ⟨full_laws.1, full_laws.2, pipe_endsLaw _ _ _ _ _ (by simp [Chan.params?, lane]), by decide +kernel,
      by decide +kernel⟩,
    fun kind => ⟨(flowing_laws kind).1, (flowing_laws kind).2, pipe_endsLaw _ _ _ _ _ (by simp [Chan.params?, lane]),
      ?_, ?_⟩⟩ <;> cases kind <;> decide +kernel

/-- Steps at index 0, on a descriptor the port holds and on one it does not, at index 127, and on a HELD buffer: of a
ONE_WAY channel (descriptor 2 of B), of a ROUND_TRIP channel whose producer is ONLINE (descriptor 4 of B), and the last of a
CLOSING channel with a COLLECT waiting and with the producer gone. -/
theorem witness_ReclaimWalkStep :
    let at' := fun (s : State) (p : Port) (i : DescIx) => s.setHpi p { Hpi.reset with state := .reclaiming i }
    (((at' base .A 0).hpi .A).state = .reclaiming 0 ∧ ((at' base .A 0).desc 0).holder = some .A ∧
      ((at' base .A 0).desc 0).state ≠ .held ∧ ((at' base .A 0).desc 0).blockList.Nodup ∧
      ((at' base .A 127).hpi .A).state = .reclaiming 127 ∧ ((at' base .A 127).desc 127).holder ≠ some .A ∧
      (base.desc 2).life = .held (buf .A [3]) ⟨7, 0, 0#16, none⟩ .B (some (.running 40)) 1 ∧
      (at' base .B 2).chan 0 = .active chan0 ∧ chan0.params.consumer = .B ∧ chan0.params.producer ≠ .B ∧
      chan0.collectWaits = [] ∧ (base.desc 4).life = .held ⟨.A, [5], true⟩ ⟨9, 1, 2#16, some (0, 128)⟩ .B none 0 ∧
      (at' base .B 4).chan 1 = .active chan1 ∧ chan1.collectWaits = [] ∧ (at' base .B 4).online .A = true ∧
      (∀ i, ((base.hpi .A).state ≠ .reclaiming i))) ∧
      ((lastHeld.desc 1).life = held 1 ∧ (at' lastHeld .B 1).hasRequest .A 7#8 .collect ∧
        (at' lastHeld .B 1).lastLeaves 2 { lane .roundTrip [] [] with
          closedConsumer := true, collectWaits := [collect7] } true = true) ∧
      (lastHeldGone.desc 1).life = held 1 ∧ (at' lastHeldGone .B 1).online .A = false ∧
        (at' lastHeldGone .B 1).lastLeaves 2 { lane .roundTrip [] [] with closedConsumer := true } false = true := by
  unfold State.hasRequest
  decide +kernel

theorem witness_DeviceResetAndMemoryClear : State.reset.resetIn = true ∧ base.resetIn = false ∧
    base.stuck 0 = Stuck.none := by decide +kernel

theorem witness_TickCountsEveryTimer :
    base.resetIn = false ∧ (base.desc 2).life = .held (buf .A [3]) ⟨7, 0, 0#16, none⟩ .B (some (.running 40)) 1 ∧
      (base.desc 0).state ≠ .held ∧ base.chan 2 = .offered offer2 9#8 .ranOut ∧ base.chan 3 = .active chan3 ∧
      base.chan 8 = .unbound ∧ State.reset.resetIn = true := by decide +kernel

/-! ### The pool -/

/-- An ALLOCATE of `n` blocks. -/
def allocReq (n limit : Word) : Request := { req .allocate 1#8 with count := n, limit := limit }

/-- Counts 0, 1, 16 and 17; the quota of 128 reached and passed; a pool that can give and one that cannot, with and without
a wait limit. -/
theorem witness_AllocateSettled :
    (∀ n w, (asks base .A (allocReq n w)).presents .allocate .A (allocReq n w)) ∧
      ((asks { base with quotas := ⟨11, 128, 128, 128⟩ } .A (allocReq 2 0)).charged .A = 9) ∧
      (let s := asks awake .A (allocReq 16 0)
       (s.setHpi .A { s.hpi .A with state := .online }).presents .allocate .A (allocReq 16 0) ∧ s.allocWaits = [] ∧
        16 ≤ s.freeList.length ∧ s.isLowestFree 0) ∧
      base.allocWaits ≠ [] ∧ { awake with freeList := [1, 2] }.cannotGive 3 ∧ (allocReq 1 1).limit ≠ 0#16 := by
  refine ⟨fun _ _ => base_presents (by decide) rfl, by decide +kernel, ⟨by unfold State.presents; decide +kernel,
    by decide +kernel, by decide +kernel, by decide +kernel, fun j hj => absurd hj (by simp)⟩, by decide +kernel,
    Or.inl (by decide +kernel), by decide⟩

theorem witness_FreeReturnsTheBuffer :
    let r := { req .free 1#8 with handle := 0x0605#16 }
    (asks base .A r).presents .free .A r ∧ (asks base .A r).handlePasses .A r [.filling, .collected] ∧
      ((asks base .A r).desc (handleIx r.handle)).blockList.Nodup := by
  repeat' first | (intros; exact base_presents (by decide) rfl) | apply And.intro
  all_goals decide +kernel

/-- A GRANT of `k` blocks to the port coded `q`. -/
def grantReq (q : BitVec 3) (k : Word) : Request := { req .grant 1#8 with peer := q, count := k }

/-- Peers 0, 1 (the requester), 4 and 5; amounts 0, 1, 512 and 513; A's quota of 128 less its charge of 9 is 119. -/
theorem witness_GrantMovesQuota :
    (∀ q k, (asks base .A (grantReq q k)).presents .grant .A (grantReq q k)) ∧
      portCode .A = (grantReq 1#3 1).peer.toNat ∧ portCode .D = (grantReq 4#3 1).peer.toNat ∧
      base.charged .A + base.waitingDemand .A = 9 ∧ base.quotas.get .A = 128 := by
  refine ⟨fun _ _ => base_presents (by decide) rfl, ?_⟩
  repeat' apply And.intro
  all_goals decide +kernel

theorem witness_QueriesReportTheState :
    (asks base .A (req .queryPool 1#8)).presents .queryPool .A (req .queryPool 1#8) ∧
      (∀ c, (asks base .A { req .queryChannel 1#8 with channel := c }).presents .queryChannel .A
        { req .queryChannel 1#8 with channel := c }) ∧ 16 ≤ (16#5).toNat ∧ (15#5).toNat = (15 : ChanIx).val := by
  repeat' first | (intros; exact base_presents (by decide) rfl) | apply And.intro
  all_goals decide +kernel

/-- None owed; owed with an empty list; owed with a head that cannot be given; owed with one that can. -/
theorem witness_ReexaminationServesTheHead :
    twoWaiters.reexamsDue = 0 ∧ { base with allocWaits := [] }.reexamsDue = 0 + 1 ∧
      ({ twoWaiters with reexamsDue := 2 }.reexamsDue = 1 + 1 ∧ twoWaiters.cannotGive 4) ∧
      (base.reexamsDue = 0 + 1 ∧ base.allocWaits = [⟨.C, 5#8, 4, some .ranOut⟩] ∧ 4 ≤ base.freeList.length ∧
        base.isLowestFree 10 ∧ base.hasRequest .C 5#8 .allocate) := by
  refine ⟨rfl, rfl, ⟨rfl, Or.inl (by decide +kernel)⟩, rfl, by decide +kernel, by decide +kernel, ?_, ?_⟩
  · unfold State.isLowestFree; decide +kernel
  · unfold State.hasRequest; decide +kernel

theorem witness_WaitTimersExpire :
    base.hasRequest .C 5#8 .allocate ∧ (∃ e ∈ base.allocWaits, e.port = .C ∧ e.tag = 5#8 ∧ e.timer = some .ranOut) ∧
      (∀ e ∈ base.allocWaits, ¬(e.port = .B ∧ e.tag = 5#8 ∧ e.timer = some .ranOut)) ∧
      base.chan 4 = .active chan4 ∧ (∃ w ∈ chan4.takeWaits, w = ⟨8#8, some .ranOut⟩) ∧
      base.hasRequest chan4.params.consumer 8#8 .take ∧ base.chan 3 = .active chan3 ∧
      (∃ w ∈ chan3.collectWaits, w = ⟨7#8, some .ranOut⟩) ∧ base.hasRequest chan3.params.producer 7#8 .collect ∧
      (∀ w ∈ chan0.takeWaits, decide (w = ⟨8#8, some .ranOut⟩) = false) ∧ (base.chan 2).active? = none := by
  repeat' apply And.intro
  all_goals decide +kernel

/-! ### RETEST and stored bits -/

theorem witness_RetestStarts :
    let r := req .retest 1#8
    ((asks base .A r).presents .retest .A r ∧ (asks base .A r).retest ≠ none) ∧
      ((asks awake .A r).retest = none ∧ (asks awake .A r).retired = [] ∧
        (asks (awake.setHpi .A (onHpi [])) .A r).presents .retest .A r) ∧
      ((asks { base with retest := none } .A r).presents .retest .A r ∧ base.retired = 20 :: []) := by
  refine ⟨⟨base_presents (by decide) rfl, by decide +kernel⟩, ⟨by decide +kernel, by decide +kernel, ?_⟩, ?_, ?_⟩
  · unfold State.presents; decide +kernel
  · unfold State.presents; decide +kernel
  · decide +kernel

/-- A last test in `base`, a test with another to follow, whose requester has gone and which an upset disturbed; a block
without a lasting fault and an upset of one of its words at a moment of each kind; and word 2560 of block 20 with one stuck
data bit. -/
theorem witness_BlockTestEnds :
    let d := fun m : Nat => (⟨2561, 1#22, 0#22, m⟩ : Disturbance)
    (awake.retest = none ∧ base.retest = some ⟨some (.B, 3#8), 1, 1, 0, 20, []⟩ ∧ base.retestLaw ∧ base.memoryWf ∧
      base.hasRequest .B 3#8 .retest) ∧
      { base with retired := [20, 21], retest := some ⟨none, 2, 2, 0, 20, [d 896]⟩ }.retestLaw ∧
      (∀ b : BlockIx, ∀ w : MemIx, w.val / 128 = b.val → awake.stuck w = Stuck.none) ∧
      ((2561 : MemIx).val / 128 = (20 : BlockIx).val ∧ bitCount 1#22 = 1 ∧ (d 1).opsDone = 0 ∧ (d 129).opsDone = 1 ∧
        (d 130).opsDone = 2 ∧ (d 769).opsDone = 6 ∧ (d 770).opsDone = 7) ∧
      (2560 : MemIx).val / 128 = (20 : BlockIx).val ∧ (base.stuck 2560).cells.getLsbD 0 = true ∧ (d 1).word ≠ 2560 := by
  refine ⟨⟨rfl, rfl, witness_markLaw.2, witness_resetLaw.2.2, by unfold State.hasRequest; decide +kernel⟩,
    forall_some (by decide +kernel), fun _ w _ => rfl, by decide +kernel, by decide +kernel⟩

/-- A sound word of `base`; a word outside the block under test, and one of it, with the law of the RETEST record. -/
theorem witness_UpsetsAreFound :
    base.memoryWf ∧ base.stuck 0 = Stuck.none ∧ base.upset 0 = 0#22 ∧ bitCount 0x200000#22 = 1 ∧
      bitCount 0x200001#22 = 2 ∧ (∀ x : Retest, base.retest = some x → (0 : MemIx).val / 128 ≠ x.block.val) ∧
      base.retest = some ⟨some (.B, 3#8), 1, 1, 0, 20, []⟩ ∧ (2560 : MemIx).val / 128 = (20 : BlockIx).val ∧
      base.retestLaw := by
  refine ⟨witness_resetLaw.2.2, by decide +kernel, by decide +kernel, by decide +kernel, by decide +kernel,
    forall_some (by decide +kernel), rfl, by decide +kernel, witness_markLaw.2⟩

/-! ### Binding and closing channels -/

/-- An OFFER of channel `c` to the port coded `q`, with the limits at the ends of their ranges. -/
def offerReq (c : BitVec 5) (q : BitVec 3) (depth : Word) : Request :=
  { req .offer 1#8 with channel := c, peer := q, chanKind := 2#2, slot := 15#6, count := depth, limit := 65535 }

/-- Channels 15 and 16, depths 0, 1, 32 and 33, peers 0, 4 and 5; the requester as its own peer, a bound channel, a peer
that is not ONLINE, and an offer that passes. -/
theorem witness_OfferBindsTheChannel :
    (∀ c q n, (asks base .A (offerReq c q n)).presents .offer .A (offerReq c q n)) ∧
      base.chan 0 ≠ .unbound ∧ base.chan 15 = .unbound ∧ (base.hpi .D).state ≠ .online ∧ (base.hpi .B).state = .online ∧
      portCode .B = (offerReq 15#5 2#3 32).peer.toNat ∧ chanKindCode .roundTrip = (offerReq 15#5 2#3 32).chanKind.toNat := by
  repeat' first | (intros; exact base_presents (by decide) rfl) | apply And.intro
  all_goals decide +kernel

/-- Any request of kind `k` that names channel `c`. -/
def chanReq (k : ReqKind) (c : BitVec 5) : Request := { req k 1#8 with channel := c }

theorem witness_AcceptOpensTheChannel :
    (∀ c, (asks base .C (chanReq .accept c)).presents .accept .C (chanReq .accept c)) ∧
      base.chan 2 = .offered offer2 9#8 .ranOut ∧ offer2.consumer = .C ∧ offer2.producer ≠ .C ∧
      base.hasRequest offer2.producer 9#8 .offer ∧
      (∀ m tag timer, base.chan 15 = .offered m tag timer → m.consumer ≠ .C) := by
  refine ⟨fun _ => base_presents (by decide) rfl, by decide +kernel, rfl, by decide,
    by unfold State.hasRequest; decide +kernel,
    fun m tag timer h => ?_⟩
  have hu : base.chan 15 = .unbound := by decide +kernel
  rw [hu] at h
  cases h

theorem witness_OffersEnd :
    (∀ c, (asks base .C (chanReq .reject c)).presents .reject .C (chanReq .reject c)) ∧
      (∀ c, (asks base .A (chanReq .withdraw c)).presents .withdraw .A (chanReq .withdraw c)) ∧
      base.chan 2 = .offered offer2 9#8 .ranOut ∧ offer2.producer ≠ offer2.consumer ∧ offer2.producer = .A ∧
      offer2.consumer = .C ∧ base.hasRequest offer2.producer 9#8 .offer ∧ (base.chan 15).state ≠ .offered := by
  repeat' first | (intros; exact base_presents (by decide) rfl) | apply And.intro
  all_goals decide +kernel

/-- An UNBOUND channel, an OFFERED one, a closed one, one with a buffer in transit and waiting TAKEs at the other end, and
one with nothing in transit and a waiting COLLECT. -/
theorem witness_CloseByTheProducer :
    let a : Active := { chan5 with collectWaits := [⟨4#8, none⟩], takeWaits := [⟨5#8, none⟩] }
    let s := ({ base with chans := base.chans.set 5 (.active a) }.setHpi .A
      (onHpi [⟨req .collect 4#8, .waiting⟩, ⟨chanReq .close 5#5, .pending⟩])).setHpi .B (onHpi [⟨req .take 5#8, .waiting⟩])
    (∀ c, (asks base .A (chanReq .close c)).presents .close .A (chanReq .close c)) ∧
      (asks base .C (chanReq .close 6#5)).presents .close .C (chanReq .close 6#5) ∧ chan6.closedBy .C = true ∧
      base.chan 0 = .active chan0 ∧ 0 < base.inTransit 0 ∧ chan0.closedProducer = false ∧
      (s.presents .close .A (chanReq .close 5#5) ∧ s.chan 5 = .active a ∧ s.inTransit 5 = 0 ∧
        (∀ w ∈ a.takeWaits, s.hasRequest a.params.consumer w.tag .take) ∧ (a.takeWaits.map Wait.tag).Nodup ∧
        (∀ w ∈ a.collectWaits, s.hasRequest .A w.tag .collect) ∧ (a.collectWaits.map Wait.tag).Nodup) := by
  refine ⟨fun _ => base_presents (by decide) rfl, base_presents (by decide) rfl, by decide +kernel, by decide +kernel,
    by decide +kernel, by decide +kernel, ?_⟩
  unfold State.presents State.hasRequest
  decide +kernel

theorem asks_queueLaw {s : State} {p : Port} {r : Request} (h : s.queueLaw) : (asks s p r).queueLaw := h

theorem asks_blockLaw {s : State} {p : Port} {r : Request} (h : s.blockLaw) : (asks s p r).blockLaw := h

/-- B's close of channel 0 (ONE_WAY, one queued, one held) and of channel 1 (ROUND_TRIP, a producer ONLINE), which stay
CLOSING; of a ONE_WAY channel with two queued, which unbinds; and of a ROUND_TRIP channel with two queued and a COLLECT
waiting, or with its producer gone. -/
theorem witness_CloseByTheConsumer :
    let gone := (pipe (.active (lane .roundTrip [0] [])) (queued 0) (idle 1) (idle 2) (idle 3)).setHpi .A Hpi.reset
    ((∀ c, (asks base .B (chanReq .close c)).presents .close .B (chanReq .close c)) ∧
      base.chan 0 = .active chan0 ∧ base.chan 1 = .active chan1 ∧ chan0.takeWaits = [] ∧ chan1.takeWaits = [] ∧
      chan0.collectWaits = [] ∧ chan1.collectWaits = [] ∧ 0 < base.heldCount 0 ∧ base.online .A = true ∧
      (asks base .B (chanReq .close 0#5)).queueLaw ∧ (asks base .B (chanReq .close 0#5)).blockLaw) ∧
      (∀ kind, (asks (flowing kind) .B (chanReq .close 2#5)).presents .close .B (chanReq .close 2#5) ∧
        (asks (flowing kind) .B (chanReq .close 2#5)).queueLaw ∧ (asks (flowing kind) .B (chanReq .close 2#5)).blockLaw ∧
        (flowing kind).heldCount 2 = 0 ∧ (asks (flowing kind) .B (chanReq .close 2#5)).hasRequest .A 7#8 .collect) ∧
      ((asks gone .B (chanReq .close 2#5)).presents .close .B (chanReq .close 2#5) ∧ gone.queueLaw ∧ gone.blockLaw ∧
        gone.online .A = false) := by
  refine ⟨⟨fun _ => base_presents (by decide) rfl, by decide +kernel, by decide +kernel, rfl, rfl, rfl, rfl,
    by decide +kernel, by decide +kernel, asks_queueLaw witness_queueLaw, asks_blockLaw witness_blockLaw⟩,
    fun kind => ⟨?_, asks_queueLaw (flowing_laws kind).1, asks_blockLaw (flowing_laws kind).2, ?_, ?_⟩, ?_,
    by unfold State.queueLaw; decide +kernel, setHpi_blockLaw (pipe_blockLaw (by decide +kernel)), by decide +kernel⟩
  · unfold State.presents; cases kind <;> decide +kernel
  · cases kind <;> decide +kernel
  · unfold State.hasRequest; cases kind <;> decide +kernel
  · unfold State.presents; decide +kernel

/-! ### Traffic -/

/-- A POST of `h` on channel `c`. -/
def postReq (h : Word) (c : BitVec 5) (length ro rc : Word) : Request :=
  { req .post 1#8 with handle := h, channel := c, length := length, replyOpen := ro, replyClose := rc }

/-- For each check of POST one that fails it and, at the ends of the ranges, one that does not: channels 15 and 16, bit 7, a
stale handle, another's buffer, a buffer not FILLING, an UNBOUND channel, another producer's, an OFFERED one, a full one,
length 256 and 257 of 256, and the reply ranges of R61 at the extent. -/
theorem witness_PostChecksInOrder :
    (∀ h c n o x, (asks base .A (postReq h c n o x)).presents .post .A (postReq h c n o x)) ∧
      (0x0180#16).getLsbD 7 = true ∧ base.stale 0x0200#16 = true ∧ (base.desc 4).holder ≠ some .A ∧
      (base.desc 5).state ≠ .filling ∧ base.chan 15 = .unbound ∧ chan4.params.producer ≠ .A ∧ base.chan 4 = .active chan4 ∧
      (base.chan 2).state ≠ .opened ∧
      chan3.params.depthLimit ≤ base.inTransit 3 ∧ base.inTransit 5 < chan5.params.depthLimit ∧
      (base.desc 0).state = .filling ∧ (base.desc 0).blockList.length = 1 := by
  repeat' first | (intros; exact base_presents (by decide) rfl) | apply And.intro
  all_goals decide +kernel

/-- A POST of A's descriptor 0 on channel 5, and of B's descriptor 9 on channel 4, where a TAKE waits. -/
theorem witness_PostMovesTheBuffer :
    let r := postReq 0x0100#16 5#5 256 254 256
    let q := postReq 0x0009#16 4#5 256 0 0
    ((asks base .A r).presents .post .A r ∧ (asks base .A r).handlePasses .A r [.filling] ∧
      base.chan 5 = .active chan5 ∧ (base.chan 5).state = .opened ∧ base.inTransit 5 < chan5.params.depthLimit ∧
      (base.desc 0).life = .filling (buf .A [0]) ∧ chan5.takeWaits = []) ∧
    ((asks base .B q).presents .post .B q ∧ (asks base .B q).handlePasses .B q [.filling] ∧
      base.chan 4 = .active chan4 ∧ (base.chan 4).state = .opened ∧ base.inTransit 4 < chan4.params.depthLimit ∧
      (base.desc 9).life = .filling (buf .B [12]) ∧ chan4.takeWaits = ⟨8#8, some .ranOut⟩ :: [] ∧
      (asks base .B q).hasRequest .A 8#8 .take) := by
  repeat' first | (intros; exact base_presents (by decide) rfl) | apply And.intro
  all_goals decide +kernel

/-- Channels 16 and 15; a TAKE by the producer's side, of an OFFERED channel, of one its consumer closed, of empty ones in
each state, and of one with a head. -/
theorem witness_TakeSettled :
    (∀ c, (asks base .B (chanReq .take c)).presents .take .B (chanReq .take c)) ∧
      (∀ c, (asks base .C (chanReq .take c)).presents .take .C (chanReq .take c)) ∧
      (∀ m, (base.chan 15).params? = some m → m.consumer ≠ .B) ∧ offer2.consumer = .C ∧
      base.chan 7 = .active chan7 ∧ chan7.closedConsumer = true ∧ base.chan 6 = .active chan6 ∧ chan6.forward = [] ∧
      chan6.closedProducer = true ∧ base.chan 5 = .active chan5 ∧ chan5.forward = [] ∧ chan5.closedProducer = false ∧
      base.chan 0 = .active chan0 ∧ chan0.forward = 1 :: [] ∧
      (base.desc 1).life = .queued (buf .A [1, 2]) ⟨300, 0, 1#16, none⟩ := by
  refine ⟨fun _ => base_presents (by decide) rfl, fun _ => base_presents (by decide) rfl,
    forall_some (by decide +kernel), ?_⟩
  decide +kernel

/-- Channels 16 and 15; a COLLECT of an OFFERED channel, of a ONE_WAY one, of an empty queue, of the head of channel 1,
which goes on, and of the last buffer of channel 7. -/
theorem witness_CollectSettled :
    (∀ c, (asks base .A (chanReq .collect c)).presents .collect .A (chanReq .collect c)) ∧
      (∀ m, (base.chan 15).params? = some m → m.producer ≠ .A) ∧ offer2.producer = .A ∧ chan0.params.kind = .oneWay ∧
      base.chan 5 = .active chan5 ∧ chan5.returns = [] ∧ base.chan 1 = .active chan1 ∧ chan1.returns = 3 :: [] ∧
      (base.desc 3).life = .returning (buf .A [4]) ⟨9, 1, 0#16, some (0, 128)⟩ ⟨.replied, some 5⟩ ∧ base.goesOn 1 ∧
      base.chan 7 = .active chan7 ∧ (base.chan 7).state = .closing ∧ base.inTransit 7 = 1 ∧ chan7.collectWaits = [] ∧
      (base.desc 8).life = .returning (buf .A [9]) ⟨1, 7, 4#16, none⟩ ⟨.revoked, none⟩ := by
  unfold State.goesOn
  refine ⟨fun _ => base_presents (by decide) rfl, forall_some (by decide +kernel), ?_⟩
  decide +kernel

/-- A RELEASE of a buffer of a ROUND_TRIP channel, of one of channel 0, which goes on, and of the last of channel 6. -/
theorem witness_ReleaseFreesTheBuffer :
    (∀ h, (asks base .B { req .release 1#8 with handle := h }).presents .release .B
      { req .release 1#8 with handle := h }) ∧
      (handleBad 0x0504#16 = false ∧ base.stale 0x0504#16 = false) ∧
      (handleBad 0x0302#16 = false ∧ base.stale 0x0302#16 = false) ∧
      (handleBad 0xFF07#16 = false ∧ base.stale 0xFF07#16 = false) ∧
      base.chan 1 = .active chan1 ∧ chan1.params.kind = .roundTrip ∧ base.chan 0 = .active chan0 ∧
      (base.desc 2).life = .held (buf .A [3]) ⟨7, 0, 0#16, none⟩ .B (some (.running 40)) 1 ∧ base.goesOn 0 ∧
      base.chan 6 = .active chan6 ∧ (base.desc 7).life = .held (buf .C [8]) ⟨1, 6, 0#16, none⟩ .B (some .ranOut) 0 ∧
      (base.chan 6).state = .closing ∧ base.inTransit 6 = 1 := by
  unfold State.goesOn
  repeat' first | (intros; exact base_presents (by decide) rfl) | apply And.intro
  all_goals decide +kernel

/-- A RETURN on a ONE_WAY channel; of 128 and of 129 bytes in a range of 128; to a waiting COLLECT; to a producer that has
gone; and of the last buffer of a CLOSING channel, to a waiting COLLECT and to a producer that has gone. -/
theorem witness_ReturnGivesTheBufferBack :
    let ret := fun (h n : Word) => { req .returnBuffer 1#8 with handle := h, length := n }
    let gone := base.setHpi .A Hpi.reset
    ((∀ h n, (asks base .B (ret h n)).presents .returnBuffer .B (ret h n)) ∧
      (handleBad 0x0302#16 = false ∧ base.stale 0x0302#16 = false) ∧
      (handleBad 0x0504#16 = false ∧ base.stale 0x0504#16 = false) ∧
      (handleBad 0x0706#16 = false ∧ base.stale 0x0706#16 = false) ∧
      (base.desc 4).life = .held ⟨.A, [5], true⟩ ⟨9, 1, 2#16, some (0, 128)⟩ .B none 0 ∧ base.chan 1 = .active chan1 ∧
      chan1.params.kind = .roundTrip ∧ chan1.params.consumer = .B ∧ base.online .A = true ∧ chan1.collectWaits = [] ∧
      base.chan 3 = .active chan3 ∧ chan3.params.consumer = .B ∧
      (base.desc 6).life = .held (buf .A [7]) ⟨1, 3, 0#16, none⟩ .B (some .ranOut) 2 ∧
      chan3.collectWaits = ⟨7#8, some .ranOut⟩ :: [] ∧ base.hasRequest .A 7#8 .collect ∧ gone.online .A = false ∧
      (asks gone .B (ret 0x0504#16 0)).presents .returnBuffer .B (ret 0x0504#16 0)) ∧
      (∀ s ∈ [lastHeld, lastHeldGone], (asks s .B (ret 1#16 0)).presents .returnBuffer .B (ret 1#16 0) ∧
        s.stale 1#16 = false ∧ (s.desc 1).life = held 1 ∧ (s.chan 2).state = .closing ∧ s.inTransit 2 = 1) := by
  refine ⟨?_, ?_⟩
  · repeat' first | (intros; exact base_presents (by decide) rfl) | apply And.intro
    all_goals decide +kernel
  · unfold State.presents
    decide +kernel

/-- A RENEW that fails each check; without a hold limit; below the renew limit; at the renew limit of 1, and at one of 2 with
the timer run out. -/
theorem witness_RenewRestartsTheHold :
    let ask := fun (s : State) (h : Word) => asks s .B { req .renew 1#8 with handle := h }
    let fresh := base.setDesc 2 ⟨3#8, .held (buf .A [3]) ⟨7, 0, 0#16, none⟩ .B (some (.running 40)) 0⟩
    (∀ h, (ask base h).presents .renew .B { req .renew 1#8 with handle := h }) ∧
      handleBad 0x0382#16 = true ∧ base.stale 0x0402#16 = true ∧
      (base.desc 0).holder ≠ some .B ∧ (base.desc 9).holder = some .B ∧
      (base.desc 9).state ≠ .held ∧ chan1.params.holdLimit = 0 ∧ base.chan 1 = .active chan1 ∧
      (base.desc 4).life = .held ⟨.A, [5], true⟩ ⟨9, 1, 2#16, some (0, 128)⟩ .B none 0 ∧
      (base.desc 2).life = .held (buf .A [3]) ⟨7, 0, 0#16, none⟩ .B (some (.running 40)) 1 ∧
      base.chan 0 = .active chan0 ∧ 0 < chan0.params.holdLimit ∧ chan0.params.renewLimit ≤ 1 ∧
      (ask fresh 0x0302#16).presents .renew .B { req .renew 1#8 with handle := 0x0302#16 } ∧
      (fresh.desc 2).life = .held (buf .A [3]) ⟨7, 0, 0#16, none⟩ .B (some (.running 40)) 0 ∧
      0 < chan0.params.renewLimit ∧ handleBad 0x0706#16 = false ∧ base.stale 0x0706#16 = false ∧
      (base.desc 6).life = .held (buf .A [7]) ⟨1, 3, 0#16, none⟩ .B (some .ranOut) 2 ∧ base.chan 3 = .active chan3 ∧
      0 < chan3.params.holdLimit ∧ chan3.params.renewLimit ≤ 2 := by
  repeat' first | (intros; exact base_presents (by decide) rfl) | apply And.intro
  all_goals decide +kernel

theorem witness_RefillStartsAgain :
    (∀ h, (asks base .A { req .refill 1#8 with handle := h }).presents .refill .A
      { req .refill 1#8 with handle := h }) ∧
      (0x0680#16).getLsbD 7 = true ∧ base.stale 0x0705#16 = true ∧ (base.desc 4).holder ≠ some .A ∧
      (base.desc 0).holder = some .A ∧
      (base.desc 0).state = .filling ∧
      (base.desc 5).life = .collected (buf .A [6]) ⟨9, 1, 1#16, none⟩ ⟨.undelivered, none⟩ := by
  repeat' first | (intros; exact base_presents (by decide) rfl) | apply And.intro
  all_goals decide +kernel

/-- No expiry on a running timer; the last buffer of the ONE_WAY channel 6; channel 3, where a COLLECT waits; the same
without it, and with a producer that has gone; and the last buffer of a CLOSING ROUND_TRIP channel, with a COLLECT waiting
and with the producer gone. -/
theorem witness_HoldExpiryRevokes :
    let bare3 := { base with chans := base.chans.set 3 (.active { chan3 with collectWaits := [] }) }
    let gone := base.setHpi .A Hpi.reset
    (∀ b tr p n, (base.desc 2).life ≠ .held b tr p (some .ranOut) n) ∧
      ((base.desc 7).life = .held (buf .C [8]) ⟨1, 6, 0#16, none⟩ .B (some .ranOut) 0 ∧ base.chan 6 = .active chan6 ∧
      chan6.params.consumer = .B ∧ chan6.params.producer ≠ .B ∧ chan6.collectWaits = [] ∧
      (base.chan 6).state = .closing ∧ base.inTransit 6 = 1 ∧
      (base.desc 6).life = .held (buf .A [7]) ⟨1, 3, 0#16, none⟩ .B (some .ranOut) 2 ∧ base.chan 3 = .active chan3 ∧
      chan3.params.consumer = .B ∧ base.hasRequest .A 7#8 .collect ∧
      bare3.chan 3 = .active { chan3 with collectWaits := [] } ∧ bare3.online .A = true ∧ gone.online .A = false ∧
      ({ bare3 with ports := gone.ports }).chan 3 = .active { chan3 with collectWaits := [] }) ∧
      ((lastHeld.desc 1).life = held 1 ∧ lastHeld.hasRequest .A 7#8 .collect ∧ (lastHeld.chan 2).state = .closing ∧
        lastHeld.inTransit 2 = 1) ∧
      ((lastHeldGone.desc 1).life = held 1 ∧ (lastHeldGone.chan 2).state = .closing ∧ lastHeldGone.inTransit 2 = 1 ∧
        lastHeldGone.online .A = false) := by
  refine ⟨fun b tr p n h => ?_, ?_⟩
  · have h2 : (base.desc 2).life = .held (buf .A [3]) ⟨7, 0, 0#16, none⟩ .B (some (.running 40)) 1 := by decide +kernel
    rw [h2] at h
    simp at h
  · unfold State.hasRequest
    decide +kernel

end Sys2Proof.Tests
end

/-!
PROOFS. The generation of a descriptor counts its freeings (R2). No one command both frees and allocates: every command but
device reset either lets descriptor records age, which never leaves FREE and counts each entry into it, or fills FREE
records, which never enters it. The operations are taken in the order of the model; those that leave the Descriptor Table
alone say so as an equation of `descs`.
-/

namespace Sys2Proof.Machine

/-! ### What may happen to one record -/

theorem Desc.state_eq_free_iff (d : Desc) : d.state = .free ↔ d.life = .free := by
  cases h : d.life <;> simp [Desc.state, h]

theorem Desc.buf_eq_none_iff (d : Desc) : d.buf = none ↔ d.life = .free := by
  cases h : d.life <;> simp [Desc.buf, h]

theorem Desc.life_ne_free_of_buf {d : Desc} {b : Buf} (h : d.buf = some b) : d.life ≠ .free := by
  rw [Ne, ← d.buf_eq_none_iff, h]
  simp

/-- The record `d` ages into `d'`: it does not leave FREE, and its generation rises by one exactly if it enters FREE. In
this direction events compose. -/
def Desc.ages (d d' : Desc) : Prop :=
  (d.state = .free → d'.state = .free) ∧
    d'.generation = if d.state ≠ .free ∧ d'.state = .free then d.generation + 1#8 else d.generation

/-- The record `d` is filled, or left, in `d'`: it does not enter FREE, and it keeps its generation. -/
def Desc.fills (d d' : Desc) : Prop :=
  (d'.state = .free → d.state = .free) ∧ d'.generation = d.generation

theorem Desc.ages_refl (d : Desc) : d.ages d := by simp [Desc.ages]

theorem Desc.ages.trans {d e f : Desc} (h : d.ages e) (k : e.ages f) : d.ages f := by
  obtain ⟨hd, hg⟩ := h
  obtain ⟨ke, kg⟩ := k
  refine ⟨ke ∘ hd, ?_⟩
  by_cases he : e.state = .free
  · simp [kg, hg, he, ke he]
  · simp [kg, hg, he, mt hd he]

/-- A record that stays out of FREE with its generation ages. -/
theorem Desc.ages_of_ne_free {d d' : Desc} (h : d.life ≠ .free) (h' : d'.life ≠ .free)
    (hg : d'.generation = d.generation) : d.ages d' := by
  rw [Ne, ← Desc.state_eq_free_iff] at h h'
  simp [Desc.ages, h, h', hg]

/-- A record that becomes FREE with its generation raised ages. -/
theorem Desc.ages_freed {d : Desc} (h : d.life ≠ .free) : d.ages ⟨d.generation + 1#8, .free⟩ := by
  rw [Ne, ← Desc.state_eq_free_iff] at h
  have hf : (⟨d.generation + 1#8, .free⟩ : Desc).state = .free := rfl
  simp [Desc.ages, h, hf]

theorem Desc.fills.generation {d d' : Desc} (h : d.fills d') :
    d'.generation = if d.state ≠ .free ∧ d'.state = .free then d.generation + 1#8 else d.generation := by
  obtain ⟨hf, hg⟩ := h
  rw [if_neg fun hn => hn.1 (hf hn.2), hg]

/-- A hold timer's count changes neither the state nor the generation (R87). -/
theorem Desc.ages_count (d : Desc) : d.ages d.count := by
  unfold Desc.count
  split
  next b t p k n h => exact Desc.ages_of_ne_free (by simp [h]) (by simp) rfl
  all_goals exact d.ages_refl

/-! ### The Descriptor Table -/

/-- Every descriptor record ages from `s` to `t`. -/
def State.ages (s t : State) : Prop := ∀ i, (s.desc i).ages (t.desc i)

/-- Every descriptor record is filled, or left, from `s` to `t`. -/
def State.fills (s t : State) : Prop := ∀ i, (s.desc i).fills (t.desc i)

theorem State.desc_of_descs {s t : State} (h : t.descs = s.descs) (i : DescIx) : t.desc i = s.desc i := by
  simp only [State.desc, h]

theorem State.ages_of_descs {s t : State} (h : t.descs = s.descs) : s.ages t := fun i => by
  rw [State.desc_of_descs h]
  exact Desc.ages_refl _

theorem State.fills_of_descs {s t : State} (h : t.descs = s.descs) : s.fills t := fun i => by
  rw [State.desc_of_descs h]
  exact ⟨id, rfl⟩

theorem State.ages_refl (s : State) : s.ages s := State.ages_of_descs rfl

theorem State.ages.trans {s t u : State} (h : s.ages t) (k : t.ages u) : s.ages u := fun i => (h i).trans (k i)

/-- Whatever leaves the table alone may follow. -/
theorem State.ages.of_descs {s t u : State} (h : s.ages t) (e : u.descs = t.descs) : s.ages u :=
  h.trans (State.ages_of_descs e)

theorem State.fills.trans {s t u : State} (h : s.fills t) (k : t.fills u) : s.fills u := fun i =>
  ⟨(h i).1 ∘ (k i).1, (k i).2.trans (h i).2⟩

theorem State.ages_foldl {α : Type} {f : State → α → State} (hf : ∀ (s : State) (x : α), s.ages (f s x)) (l : List α)
    (s : State) : s.ages (l.foldl f s) := by
  induction l generalizing s with
  | nil => exact s.ages_refl
  | cons x rest ih => exact (hf s x).trans (ih _)

/-- A transition between two states other than FREE. -/
theorem State.ages_setLife {s : State} {i : DescIx} {l : Life} (h : (s.desc i).life ≠ .free) (hl : l ≠ .free) :
    s.ages (s.setLife i l) := fun j => by
  rw [State.desc_setLife]
  split_ifs with hij
  · subst hij
    exact Desc.ages_of_ne_free h hl rfl
  · exact Desc.ages_refl _

/-- A transition to a state other than FREE. -/
theorem State.fills_setLife {s : State} {i : DescIx} {l : Life} (hl : l ≠ .free) : s.fills (s.setLife i l) := fun j => by
  rw [State.desc_setLife]
  split_ifs with hij
  · subst hij
    exact ⟨fun hf => absurd ((Desc.state_eq_free_iff _).1 hf) hl, rfl⟩
  · exact ⟨id, rfl⟩

/-- Becoming FREE; a FREE descriptor is left alone (R12). -/
theorem State.ages_freeDesc (s : State) (i : DescIx) : s.ages (s.freeDesc i) := fun j => by
  by_cases hij : i = j
  · subst hij
    by_cases hb : (s.desc i).buf = none
    · simp only [State.freeDesc, hb]
      exact Desc.ages_refl _
    · rw [s.freeDesc_desc_same i hb]
      exact Desc.ages_freed (mt (Desc.buf_eq_none_iff _).2 hb)
  · rw [s.freeDesc_desc_ne hij]
    exact Desc.ages_refl _

/-! ### Shared operations that leave the Descriptor Table alone -/

@[simp] theorem State.complete_descs (s : State) (p : Port) (tag : Tag) (r : ResultCode) (v : Vals) :
    (s.complete p tag r v).descs = s.descs := by
  obtain ⟨t, q, h⟩ := s.complete_frame p tag r v
  rw [h, State.setHpi_descs]

@[simp] theorem State.notice_descs (s : State) (p : Port) (k : NoticeKind) (v : Vals) :
    (s.notice p k v).descs = s.descs := by
  obtain ⟨q, ks, cs, h⟩ := s.notice_frame p k v
  rw [h, State.setHpi_descs]

@[simp] theorem State.completeAll_descs (s : State) (p : Port) (ws : List Wait) (r : ResultCode) (v : Vals) :
    (s.completeAll p ws r v).descs = s.descs := by
  obtain ⟨x, h⟩ := State.completeAll_frame ws s p r v
  rw [h]

@[simp] theorem State.refuseOnChannel_descs (s : State) (p : Port) (r : Request) (code : ResultCode) :
    (s.refuseOnChannel p r code).descs = s.descs := by
  unfold State.refuseOnChannel
  split <;> simp

@[simp] theorem State.dropAllocWait_descs (s : State) (p : Port) (tag : Tag) :
    (s.dropAllocWait p tag).descs = s.descs := by
  unfold State.dropAllocWait
  split <;> rfl

@[simp] theorem State.noticeReturns_descs (s : State) (c : ChanIx) (e : Bool) :
    (s.noticeReturns c e).descs = s.descs := by
  obtain ⟨x, h⟩ := s.noticeReturns_frame c e
  rw [h]

@[simp] theorem State.unbind_descs (s : State) (c : ChanIx) : (s.unbind c).descs = s.descs := by
  obtain ⟨x, y, h⟩ := s.unbind_frame c
  rw [h]

@[simp] theorem State.unbindIfDrained_descs (s : State) (c : ChanIx) : (s.unbindIfDrained c).descs = s.descs := by
  obtain ⟨x, y, h⟩ := s.unbindIfDrained_frame c
  rw [h]

@[simp] theorem State.producerClose_descs (s : State) (c : ChanIx) : (s.producerClose c).descs = s.descs := by
  unfold State.producerClose
  split <;> simp

@[simp] theorem State.refuseAccess_descs (s : State) (p : Port) (addr : BitVec 14) (dir : Direction) (f : FaultKind) :
    (s.refuseAccess p addr dir f).descs = s.descs := by
  obtain ⟨x, h⟩ := s.refuseAccess_frame p addr dir f
  rw [h]

@[simp] theorem State.dropHoldings_descs (s : State) (p : Port) : (s.dropHoldings p).descs = s.descs := by
  unfold State.dropHoldings
  dsimp only
  split <;> rfl

/-! ### Allocation (R13, R28) -/

theorem State.fills_satisfy (s : State) (p : Port) (tag : Tag) (n : Nat) (i : DescIx) :
    s.fills (s.satisfy p tag n i) := by
  obtain ⟨x, h⟩ := s.allocTo_frame p n i
  refine (State.fills_setLife (i := i) (l := .filling ⟨p, s.freeList.take n, false⟩) (by simp)).trans
    (State.fills_of_descs ?_)
  rw [State.satisfy, State.complete_descs, h]

theorem State.fills_serveHeads (n : Nat) (s : State) : s.fills (State.serveHeads n s) := by
  induction n generalizing s with
  | zero => exact State.fills_of_descs rfl
  | succ n ih =>
    unfold State.serveHeads
    split
    next => exact State.fills_of_descs rfl
    next e rest _ =>
      split
      next => exact State.fills_of_descs rfl
      next i _ => exact (State.fills_satisfy { s with allocWaits := rest } e.port e.tag e.count i).trans (ih _)

theorem State.fills_reexamine (s : State) : s.fills s.reexamine := by
  unfold State.reexamine
  split
  next => exact State.fills_of_descs rfl
  next n _ => exact State.fills_serveHeads _ { s with reexamsDue := n }

theorem fills_settleAllocate (r : Request) (p : Port) (s : State) : s.fills (settleAllocate r p s) := by
  unfold settleAllocate
  split
  next => exact State.fills_of_descs (by simp)
  next =>
    split
    next i _ _ => exact s.fills_satisfy p r.tag r.count.toNat i
    next => split <;> exact State.fills_of_descs (by simp [State.joinAllocWaits])

/-! ### Movement on channels (R53, R54, R63, R67, R73, R92) -/

theorem State.ages_deliver {s : State} {i : DescIx} (h : (s.desc i).life ≠ .free) (m : ChanParams) (tag : Tag) (b : Buf)
    (t : Traffic) : s.ages (s.deliver m tag i b t) :=
  (State.ages_setLife h (by simp)).of_descs (State.complete_descs ..)

theorem State.ages_arrive {s : State} {i : DescIx} (h : (s.desc i).life ≠ .free) (c : ChanIx) (b : Buf) (t : Traffic)
    (r : Came) : s.ages (s.arrive c i b t r) := by
  have hmove (x : Chan) {l : Life} (hl : l ≠ .free) : s.ages ((s.setChan c x).setLife i l) :=
    State.ages_setLife (s := s.setChan c x) h hl
  unfold State.arrive
  split
  next => exact s.ages_refl
  next a _ =>
    split
    next w ws _ => exact (hmove _ (by simp)).of_descs (State.complete_descs ..)
    next => exact hmove _ (by simp)

theorem State.ages_comeBack {s : State} {i : DescIx} (h : (s.desc i).life ≠ .free) (b : Buf) (t : Traffic) (r : Came) :
    s.ages (s.comeBack i b t r) :=
  (State.ages_arrive h t.channel b t r).of_descs (State.noticeReturns_descs ..)

theorem State.ages_bounceOne (c : ChanIx) (s : State) (i : DescIx) : s.ages (State.bounceOne c s i) := by
  unfold State.bounceOne
  split
  next b t h => exact State.ages_arrive (i := i) (by simp [h]) c b t _
  all_goals exact s.ages_refl

theorem State.ages_consumerClose (s : State) (c : ChanIx) : s.ages (s.consumerClose c) := by
  unfold State.consumerClose
  split
  next => exact s.ages_refl
  next a _ =>
    extract_lets s1
    have hf : s.ages (a.forward.foldl State.freeDesc s1) :=
      (State.ages_of_descs (by simp [s1])).trans (State.ages_foldl State.ages_freeDesc a.forward s1)
    have hb : s.ages (a.forward.foldl (State.bounceOne c) s1) :=
      (State.ages_of_descs (by simp [s1])).trans (State.ages_foldl (State.ages_bounceOne c) a.forward s1)
    split
    next =>
      split
      · exact hf
      · exact hf.of_descs (State.notice_descs ..)
    next =>
      split
      · exact hb.of_descs (State.noticeReturns_descs ..)
      · exact hf

theorem State.ages_closeBy (s : State) (p : Port) (c : ChanIx) : s.ages (s.closeBy p c) := by
  unfold State.closeBy
  split
  next => exact s.ages_refl
  next a _ =>
    split
    · exact State.ages_of_descs (by simp)
    · exact State.ages_consumerClose (s.setChan c (.active { a with closedConsumer := true })) c

theorem State.ages_revoke (s : State) (i : DescIx) (byExpiry : Bool) : s.ages (s.revoke i byExpiry) := by
  unfold State.revoke
  split
  next b t p k n h =>
    extract_lets s1 v s2
    have h1 : s.ages s1 := by
      simp only [s1]
      split
      · exact State.ages_comeBack (i := i) (by simp [h]) b t _
      · exact s.ages_freeDesc i
    have h2 : s2.descs = s1.descs := by
      simp only [s2]
      split <;> simp
    exact h1.of_descs (by rw [State.unbindIfDrained_descs, h2])
  all_goals exact s.ages_refl

/-! ### Accesses that find damage (R117, R118) -/

theorem State.ages_setDamaged (s : State) (i : DescIx) : s.ages (s.setDamaged i) := by
  unfold State.setDamaged
  split
  next => exact s.ages_refl
  all_goals
    next h => exact State.ages_setLife (by simp [h]) (by simp)

theorem State.ages_markDamage (s : State) (p : Port) (i : DescIx) (h : Word) (o : Nat) (dir : Direction) :
    s.ages (s.markDamage p i h o dir) := by
  have h1 (b : BlockIx) (x : BlockRec) : s.ages ((s.setBlock b x).setDamaged i) :=
    State.ages_setDamaged (s.setBlock b x) i
  unfold State.markDamage
  dsimp only
  split
  · exact h1 _ _
  · exact (h1 _ _).of_descs (State.notice_descs ..)

theorem State.ages_serveRead (s : State) (p : Port) (i : DescIx) (o : Nat) : s.ages (s.serveRead p i o) := by
  unfold State.serveRead
  extract_lets w s1
  have h1 : s.ages s1 := by
    simp only [s1]
    split
    next => exact s.ages_refl
    next => exact State.ages_of_descs (by simp)
    next => exact s.ages_markDamage p i _ o .read
  exact h1.of_descs (State.driveData_descs ..)

theorem State.ages_serveWrite (s : State) (p : Port) (i : DescIx) (o : Nat) (x : BusWrite) :
    s.ages (s.serveWrite p i o x) := by
  have hpart (w : MemIx) (y : Word) : s.ages
      ((if s.finding w = .uncorrectable then s.markDamage p i (s.handle i) o .write else s).storeWord w y) := by
    refine State.ages.of_descs ?_ (State.storeWord_descs ..)
    split
    · exact s.ages_markDamage p i _ o .write
    · exact s.ages_refl
  unfold State.serveWrite
  dsimp only
  split
  next => exact s.ages_refl
  next => exact State.ages_of_descs (by simp)
  next => exact hpart _ _
  next => exact hpart _ _

theorem State.ages_readAperture (s : State) (p : Port) (addr : BitVec 14) : s.ages (s.readAperture p addr) := by
  unfold State.readAperture
  split
  · split
    next => exact s.ages_serveRead p _ _
    next => exact State.ages_of_descs (by simp)
  · exact State.ages_of_descs (by simp)

theorem State.ages_writeAperture (s : State) (p : Port) (addr : BitVec 14) (x : BusWrite) :
    s.ages (s.writeAperture p addr x) := by
  unfold State.writeAperture
  split
  · split
    next => exact s.ages_serveWrite p _ _ x
    next => exact State.ages_of_descs (by simp)
  · exact s.ages_refl

/-! ### Reclaim (chapter 10) -/

theorem State.ages_freeReturns (s : State) (c : ChanIx) : s.ages (s.freeReturns c) := by
  unfold State.freeReturns
  split
  next => exact s.ages_refl
  next a _ => exact State.ages_foldl State.ages_freeDesc a.returns (s.setChan c (.active { a with returns := [] }))

theorem State.ages_reclaimChannel (p : Port) (s : State) (c : ChanIx) : s.ages (State.reclaimChannel p s c) := by
  unfold State.reclaimChannel
  split
  next => exact s.ages_refl
  next => split_ifs <;> exact State.ages_of_descs (by simp)
  next a _ =>
    split
    · extract_lets s1 s2
      have h1 : s.ages s1 := by
        simp only [s1]
        split
        · exact s.ages_refl
        · exact s.ages_closeBy p c
      have h2 : s1.ages s2 := by
        simp only [s2]
        split
        · exact s1.ages_freeReturns c
        · exact s1.ages_refl
      exact (h1.trans h2).of_descs (by split <;> simp)
    · exact s.ages_refl

theorem State.ages_reclaimStart (s : State) (p : Port) : s.ages (s.reclaimStart p) :=
  (State.ages_of_descs (s.dropHoldings_descs p)).trans (State.ages_foldl (State.ages_reclaimChannel p) _ _)

theorem State.ages_walkAt (s : State) (p : Port) (i : DescIx) : s.ages (s.walkAt p i) := by
  unfold State.walkAt
  split
  · split
    next => exact s.ages_revoke i false
    next => exact s.ages_freeDesc i
    next => exact s.ages_freeDesc i
    all_goals exact s.ages_refl
  · exact s.ages_refl

theorem State.ages_walkStep (s : State) (p : Port) : s.ages (s.walkStep p) := by
  unfold State.walkStep
  split
  next i _ => exact (s.ages_walkAt p i).of_descs (State.setHpi_descs ..)
  all_goals exact s.ages_refl

/-! ### Events inside the part -/

theorem State.desc_tickOnce (s : State) (i : DescIx) :
    s.tickOnce.desc i = if s.resetIn then s.desc i else (s.desc i).count := by
  unfold State.tickOnce
  split
  · rfl
  · simp [State.desc]

theorem State.ages_tickOnce (s : State) : s.ages s.tickOnce := fun i => by
  rw [State.desc_tickOnce]
  split
  · exact Desc.ages_refl _
  · exact Desc.ages_count _

theorem State.ages_expireHold (s : State) (i : DescIx) : s.ages (s.expireHold i) := by
  unfold State.expireHold
  split
  next => exact s.ages_revoke i true
  all_goals exact s.ages_refl

theorem State.expireAlloc_descs (s : State) (p : Port) (tag : Tag) : (s.expireAlloc p tag).descs = s.descs := by
  unfold State.expireAlloc
  split <;> simp

theorem State.expireTake_descs (s : State) (c : ChanIx) (tag : Tag) : (s.expireTake c tag).descs = s.descs := by
  unfold State.expireTake
  (repeat' split) <;> simp

theorem State.expireCollect_descs (s : State) (c : ChanIx) (tag : Tag) : (s.expireCollect c tag).descs = s.descs := by
  unfold State.expireCollect
  (repeat' split) <;> simp

theorem State.expireOffer_descs (s : State) (c : ChanIx) : (s.expireOffer c).descs = s.descs := by
  unfold State.expireOffer
  split <;> simp

theorem State.closeTest_descs (s : State) (b : BlockIx) (ds : List Disturbance) :
    (s.closeTest b ds).descs = s.descs := by
  rw [closeTest_frame, State.zeroBlock_descs]

theorem State.takeResult_descs (s : State) (b : BlockIx) (pass : Bool) : (s.takeResult b pass).descs = s.descs := by
  unfold State.takeResult
  split <;> rfl

theorem State.endRetest_descs (s : State) (t : Retest) (passed : Nat) : (s.endRetest t passed).descs = s.descs := by
  unfold State.endRetest
  extract_lets s1
  split <;> simp [s1]

theorem State.endTest_descs (s : State) : s.endTest.descs = s.descs := by
  unfold State.endTest
  split
  next => rfl
  next t _ =>
    extract_lets pass s1 passed
    have h1 : s1.descs = s.descs := by rw [State.takeResult_descs, State.closeTest_descs]
    split
    next => exact h1
    next => rw [State.endRetest_descs, h1]

theorem State.storedBitUpset_descs (s : State) (w : MemIx) (flips cells level : StoredBits) :
    ((s.noteUpset w flips cells).upsetWord w flips cells level).descs = s.descs := by
  rw [noteUpset_frame]
  rfl

/-! ### The port bus -/

theorem State.submit_descs (s : State) (p : Port) : (s.submit p).descs = s.descs := by
  have henter (k : ReqKind) : (s.enter p k).descs = s.descs := by
    unfold State.enter State.attachNow
    split <;> simp
  unfold State.submit
  split
  · extract_lets a s1
    have h1 : s1.descs = s.descs := by
      simp only [s1]
      split
      next => exact henter _
      next => rfl
    rw [State.driveData_descs, h1]
  · rfl

theorem State.consumeHead_descs (s : State) (p : Port) : (s.consumeHead p).descs = s.descs := by
  unfold State.consumeHead
  (repeat' split) <;> rfl

theorem State.writeEnable_descs (s : State) (p : Port) (w : BusWrite) : (s.writeEnable p w).descs = s.descs := by
  unfold State.writeEnable
  split <;> rfl

theorem State.clearFault_descs (s : State) (p : Port) : (s.clearFault p).descs = s.descs := by
  unfold State.clearFault
  split <;> rfl

theorem State.writeStaging_descs (s : State) (p : Port) (k : Fin 8) (w : BusWrite) :
    (s.writeStaging p k w).descs = s.descs := by
  unfold State.writeStaging
  split <;> rfl

theorem State.readTickLow_descs (s : State) (p : Port) : (s.readTickLow p).descs = s.descs := by
  unfold State.readTickLow
  split <;> rfl

theorem State.ages_busWrite (s : State) (p : Port) (addr : BitVec 15) (w : BusWrite) : s.ages (s.busWrite p addr w) := by
  unfold State.busWrite
  split
  next k _ => exact State.ages_of_descs (s.writeStaging_descs p k w)
  next a _ => exact s.ages_writeAperture p a w
  next => exact State.ages_of_descs (s.consumeHead_descs p)
  next => exact State.ages_of_descs (s.writeEnable_descs p w)
  next => exact State.ages_of_descs (s.clearFault_descs p)
  all_goals exact s.ages_refl

/-! ### Requests that leave the Descriptor Table alone -/

theorem settleAttach_descs (r : Request) (p : Port) (s : State) : (settleAttach r p s).descs = s.descs :=
  State.complete_descs ..

theorem settleCancel_descs (r : Request) (p : Port) (s : State) : (settleCancel r p s).descs = s.descs := by
  unfold settleCancel
  (repeat' split) <;> simp [State.cancelDone]

theorem settleGrant_descs (r : Request) (p : Port) (s : State) : (settleGrant r p s).descs = s.descs := by
  unfold settleGrant
  split <;> simp [State.moveQuota]

theorem settleRetest_descs (r : Request) (p : Port) (s : State) : (settleRetest r p s).descs = s.descs := by
  unfold settleRetest
  split <;> simp

theorem settleQueryPool_descs (r : Request) (p : Port) (s : State) : (settleQueryPool r p s).descs = s.descs :=
  State.complete_descs ..

theorem settleOffer_descs (r : Request) (p : Port) (s : State) : (settleOffer r p s).descs = s.descs := by
  unfold settleOffer
  split <;> simp [State.bindOffer]

theorem settleWithdraw_descs (r : Request) (p : Port) (s : State) : (settleWithdraw r p s).descs = s.descs := by
  unfold settleWithdraw
  (repeat' split) <;> simp

theorem settleAccept_descs (r : Request) (p : Port) (s : State) : (settleAccept r p s).descs = s.descs := by
  unfold settleAccept
  (repeat' split) <;> simp

theorem settleReject_descs (r : Request) (p : Port) (s : State) : (settleReject r p s).descs = s.descs := by
  unfold settleReject
  (repeat' split) <;> simp

theorem settleQueryChannel_descs (r : Request) (p : Port) (s : State) :
    (settleQueryChannel r p s).descs = s.descs := by
  unfold settleQueryChannel
  split <;> simp

theorem settleMap_descs (r : Request) (p : Port) (s : State) : (settleMap r p s).descs = s.descs := by
  unfold settleMap
  dsimp only
  split <;> simp

theorem settleUnmap_descs (r : Request) (p : Port) (s : State) : (settleUnmap r p s).descs = s.descs := by
  unfold settleUnmap
  (repeat' split) <;> simp

/-! ### Requests that move buffers -/

theorem ages_settleFree (r : Request) (p : Port) (s : State) : s.ages (settleFree r p s) := by
  unfold settleFree
  split
  next => exact State.ages_of_descs (by simp)
  next => exact (s.ages_freeDesc _).of_descs (State.complete_descs ..)

theorem ages_settleRefill (r : Request) (p : Port) (s : State) : s.ages (settleRefill r p s) := by
  unfold settleRefill
  extract_lets i
  split
  next b _ hb => exact (State.ages_setLife (Desc.life_ne_free_of_buf hb) (by simp)).of_descs (State.complete_descs ..)
  all_goals exact State.ages_of_descs (by simp)

theorem ages_settleClose (r : Request) (p : Port) (s : State) : s.ages (settleClose r p s) := by
  unfold settleClose
  dsimp only
  split
  next => exact State.ages_of_descs (by simp)
  next => exact State.ages_of_descs (by simp)
  next a _ _ =>
    split
    · exact State.ages_of_descs (by simp)
    · exact (s.ages_closeBy p r.chan).of_descs (by split <;> simp)

theorem State.ages_postBuffer {s : State} {i : DescIx} (h : (s.desc i).life ≠ .free) (p : Port) (r : Request) (b : Buf)
    (a : Active) : s.ages (s.postBuffer p r i b a) := by
  unfold State.postBuffer
  extract_lets c t a1 v s1 s2
  split
  next w ws _ =>
    have hd : s.ages ((s.setChan c (.active { a1 with takeWaits := ws })).deliver a.params w.tag i b t) :=
      State.ages_deliver (s := s.setChan c (.active { a1 with takeWaits := ws })) h a.params w.tag b t
    exact hd.of_descs (State.complete_descs ..)
  next =>
    have h1 : s.ages s1 :=
      State.ages_setLife (s := s.setChan c (.active { a1 with forward := a.forward ++ [i] })) h (by simp)
    have h2 : s2.descs = s1.descs := by
      simp only [s2]
      split <;> simp
    exact h1.of_descs (by rw [State.complete_descs, h2])

theorem ages_settlePost (r : Request) (p : Port) (s : State) : s.ages (settlePost r p s) := by
  unfold settlePost
  split
  next b a _ hb _ => exact State.ages_postBuffer (Desc.life_ne_free_of_buf hb) p r b a
  all_goals exact State.ages_of_descs (by simp)

theorem State.takeEmpty_descs (s : State) (p : Port) (r : Request) (a : Active) :
    (s.takeEmpty p r a).descs = s.descs := by
  unfold State.takeEmpty
  split_ifs <;> simp

theorem ages_settleTake (r : Request) (p : Port) (s : State) : s.ages (settleTake r p s) := by
  unfold settleTake
  split
  next => exact State.ages_of_descs (by simp)
  next => exact State.ages_of_descs (by simp)
  next a _ _ =>
    split
    next => exact State.ages_of_descs (s.takeEmpty_descs p r a)
    next i rest _ =>
      split
      next b t h =>
        exact State.ages_deliver (s := s.setChan r.chan (.active { a with forward := rest })) (i := i) (by simp [h])
          a.params r.tag b t
      all_goals exact s.ages_refl

theorem State.ages_collectHead (s : State) (p : Port) (r : Request) (a : Active) (i : DescIx) (rest : List DescIx) :
    s.ages (s.collectHead p r a i rest) := by
  unfold State.collectHead
  split
  next b t x h =>
    have hm : s.ages ((s.setChan r.chan (.active { a with returns := rest })).setLife i (.collected b t x)) :=
      State.ages_setLife (s := s.setChan r.chan (.active { a with returns := rest })) (by simp [h]) (by simp)
    exact hm.of_descs (by simp)
  all_goals exact s.ages_refl

theorem ages_settleCollect (r : Request) (p : Port) (s : State) : s.ages (settleCollect r p s) := by
  unfold settleCollect
  split
  next => exact State.ages_of_descs (by simp)
  next => exact State.ages_of_descs (by simp)
  next a _ _ =>
    split
    next i rest _ => exact s.ages_collectHead p r a i rest
    next => split <;> exact State.ages_of_descs (by simp)

theorem ages_settleRelease (r : Request) (p : Port) (s : State) : s.ages (settleRelease r p s) := by
  unfold settleRelease
  split
  next t _ _ => exact (s.ages_freeDesc (handleIx r.handle)).of_descs (by simp)
  all_goals exact State.ages_of_descs (by simp)

theorem State.ages_giveBack {s : State} {i : DescIx} (h : (s.desc i).life ≠ .free) (p : Port) (r : Request) (b : Buf)
    (t : Traffic) : s.ages (s.giveBack p r i b t) := by
  unfold State.giveBack
  extract_lets gone s1
  have h1 : s.ages s1 := by
    simp only [s1]
    split
    · exact s.ages_freeDesc i
    · exact State.ages_comeBack h b t _
  exact h1.of_descs (by simp)

theorem ages_settleReturn (r : Request) (p : Port) (s : State) : s.ages (settleReturn r p s) := by
  unfold settleReturn
  split
  next b t _ _ _ _ h => exact State.ages_giveBack (by simp [h]) p r b t
  all_goals exact State.ages_of_descs (by simp)

theorem State.renewRefused_descs (s : State) (p : Port) (r : Request) (k : Option Timer) (used : Nat) :
    (s.renewRefused p r k used).descs = s.descs := by
  unfold State.renewRefused
  split <;> simp

theorem ages_settleRenew (r : Request) (p : Port) (s : State) : s.ages (settleRenew r p s) := by
  unfold settleRenew
  extract_lets i
  split
  next b t q k used _ h =>
    split
    next => exact State.ages_of_descs (by simp)
    next =>
      split
      · exact (State.ages_setLife (by simp [h]) (by simp)).of_descs (State.complete_descs ..)
      · exact State.ages_of_descs (s.renewRefused_descs p r k used)
  all_goals exact State.ages_of_descs (by simp)

/-! ### Every command -/

theorem State.ages_present {s : State} {k : ReqKind} {p : Port} {f : Request → Port → State → State}
    (hf : ∀ r, s.ages (f r p s)) : s.ages (s.present k p f) := by
  obtain h | ⟨r, _, _, _, h⟩ := s.present_cases k p f
  · rw [h]; exact s.ages_refl
  · rw [h]; exact hf r

theorem State.ages_present_of_descs {s : State} {k : ReqKind} {p : Port} {f : Request → Port → State → State}
    (hf : ∀ r p s, (f r p s).descs = s.descs) : s.ages (s.present k p f) :=
  State.ages_present fun r => State.ages_of_descs (hf r p s)

theorem State.fills_present {s : State} {k : ReqKind} {p : Port} {f : Request → Port → State → State}
    (hf : ∀ r, s.fills (f r p s)) : s.fills (s.present k p f) := by
  obtain h | ⟨r, _, _, _, h⟩ := s.present_cases k p f
  · rw [h]; exact State.fills_of_descs rfl
  · rw [h]; exact hf r

theorem State.ages_attach (s : State) (p : Port) : s.ages
    (if (s.hpi p).state = .offline then if kindOf (stagedKind (s.hpi p).staging) = some .attach then s.submit p else s
    else s.present .attach p settleAttach) := by
  split_ifs
  · exact State.ages_of_descs (s.submit_descs p)
  · exact s.ages_refl
  · exact State.ages_present_of_descs settleAttach_descs

theorem State.ages_portResetAssert (s : State) (p : Port) : s.ages
    (if s.online p then (s.setHpi p { s.hpi p with resetIn := true }).reclaimStart p
    else s.setHpi p { s.hpi p with resetIn := true }) := by
  split
  · exact State.ages_reclaimStart (s.setHpi p { s.hpi p with resetIn := true }) p
  · exact State.ages_of_descs rfl

/-- What a command does to the Descriptor Table: ALLOCATE and the re-examination of the pool fill FREE descriptors, and
every other command but device reset lets them age. -/
theorem exec_ages_or_fills (c : Instr) (s : State) (hc : c ≠ .deviceReset) :
    ∃ t, exec c s = .next t ∧ (s.ages t ∨ s.fills t) := by
  cases c with
  | submission p => exact ⟨_, rfl, .inl (State.ages_of_descs (s.submit_descs p))⟩
  | registerWrite p addr w => exact ⟨_, rfl, .inl (s.ages_busWrite p addr w)⟩
  | consume p w => exact ⟨_, rfl, .inl (State.ages_of_descs (s.consumeHead_descs p))⟩
  | attentionEnableWrite p w => exact ⟨_, rfl, .inl (State.ages_of_descs (s.writeEnable_descs p w))⟩
  | faultClear p w => exact ⟨_, rfl, .inl (State.ages_of_descs (s.clearFault_descs p))⟩
  | tickLowRead p => exact ⟨_, rfl, .inl (State.ages_of_descs (s.readTickLow_descs p))⟩
  | apertureRead p addr => exact ⟨_, rfl, .inl (s.ages_readAperture p addr)⟩
  | apertureWrite p addr w => exact ⟨_, rfl, .inl (s.ages_writeAperture p addr w)⟩
  | attach p => exact ⟨_, rfl, .inl (s.ages_attach p)⟩
  | detach p => exact ⟨_, rfl, .inl (State.ages_present fun _ => s.ages_reclaimStart p)⟩
  | cancel p => exact ⟨_, rfl, .inl (State.ages_present_of_descs settleCancel_descs)⟩
  | allocate p => exact ⟨_, rfl, .inr (State.fills_present fun r => fills_settleAllocate r p s)⟩
  | free p => exact ⟨_, rfl, .inl (State.ages_present fun r => ages_settleFree r p s)⟩
  | refill p => exact ⟨_, rfl, .inl (State.ages_present fun r => ages_settleRefill r p s)⟩
  | grant p => exact ⟨_, rfl, .inl (State.ages_present_of_descs settleGrant_descs)⟩
  | retest p => exact ⟨_, rfl, .inl (State.ages_present_of_descs settleRetest_descs)⟩
  | queryPool p => exact ⟨_, rfl, .inl (State.ages_present_of_descs settleQueryPool_descs)⟩
  | offer p => exact ⟨_, rfl, .inl (State.ages_present_of_descs settleOffer_descs)⟩
  | withdraw p => exact ⟨_, rfl, .inl (State.ages_present_of_descs settleWithdraw_descs)⟩
  | accept p => exact ⟨_, rfl, .inl (State.ages_present_of_descs settleAccept_descs)⟩
  | reject p => exact ⟨_, rfl, .inl (State.ages_present_of_descs settleReject_descs)⟩
  | close p => exact ⟨_, rfl, .inl (State.ages_present fun r => ages_settleClose r p s)⟩
  | queryChannel p => exact ⟨_, rfl, .inl (State.ages_present_of_descs settleQueryChannel_descs)⟩
  | post p => exact ⟨_, rfl, .inl (State.ages_present fun r => ages_settlePost r p s)⟩
  | take p => exact ⟨_, rfl, .inl (State.ages_present fun r => ages_settleTake r p s)⟩
  | collect p => exact ⟨_, rfl, .inl (State.ages_present fun r => ages_settleCollect r p s)⟩
  | release p => exact ⟨_, rfl, .inl (State.ages_present fun r => ages_settleRelease r p s)⟩
  | returnBuffer p => exact ⟨_, rfl, .inl (State.ages_present fun r => ages_settleReturn r p s)⟩
  | renew p => exact ⟨_, rfl, .inl (State.ages_present fun r => ages_settleRenew r p s)⟩
  | mapSlot p => exact ⟨_, rfl, .inl (State.ages_present_of_descs settleMap_descs)⟩
  | unmapSlot p => exact ⟨_, rfl, .inl (State.ages_present_of_descs settleUnmap_descs)⟩
  | poolReexamination => exact ⟨_, rfl, .inr s.fills_reexamine⟩
  | tick => exact ⟨_, rfl, .inl s.ages_tickOnce⟩
  | allocationWaitExpiry p tag => exact ⟨_, rfl, .inl (State.ages_of_descs (s.expireAlloc_descs p tag))⟩
  | takeWaitExpiry k tag => exact ⟨_, rfl, .inl (State.ages_of_descs (s.expireTake_descs k tag))⟩
  | collectWaitExpiry k tag => exact ⟨_, rfl, .inl (State.ages_of_descs (s.expireCollect_descs k tag))⟩
  | offerExpiry k => exact ⟨_, rfl, .inl (State.ages_of_descs (s.expireOffer_descs k))⟩
  | holdExpiry i => exact ⟨_, rfl, .inl (s.ages_expireHold i)⟩
  | blockTestEnd => exact ⟨_, rfl, .inl (State.ages_of_descs s.endTest_descs)⟩
  | reclaimWalkStep p => exact ⟨_, rfl, .inl (s.ages_walkStep p)⟩
  | portResetAssert p => exact ⟨_, rfl, .inl (s.ages_portResetAssert p)⟩
  | portResetRelease p => exact ⟨_, rfl, .inl (State.ages_of_descs rfl)⟩
  | deviceReset => exact absurd rfl hc
  | memoryClear => exact ⟨_, rfl, .inl (State.ages_of_descs (by split <;> rfl))⟩
  | deviceReady => exact ⟨_, rfl, .inl (State.ages_of_descs (by split <;> rfl))⟩
  | storedBitUpset w flips cells level =>
    exact ⟨_, rfl, .inl (State.ages_of_descs (s.storedBitUpset_descs w flips cells level))⟩

/-! ### The handle (R14) -/

theorem handleOf_high (i : DescIx) (g : BitVec 8) : (handleOf i g).extractLsb' 8 8 = g := by
  apply BitVec.eq_of_toNat_eq
  have hi := i.isLt
  have hg := g.isLt
  simp only [handleOf, word, BitVec.extractLsb'_toNat, BitVec.toNat_ofNat, Nat.shiftRight_eq_div_pow]
  omega

theorem handleOf_low (i : DescIx) (g : BitVec 8) : (handleOf i g).extractLsb' 0 8 = BitVec.ofNat 8 i.val := by
  apply BitVec.eq_of_toNat_eq
  simp only [handleOf, word, BitVec.extractLsb'_toNat, BitVec.toNat_ofNat, Nat.shiftRight_eq_div_pow]
  omega

/-! ### The obligation -/

/-- Settles O16. In a command that lets descriptors age the count is a clause of `Desc.ages`; in one that fills them no
descriptor enters FREE and none changes its generation. -/
theorem generationCountsLives : Obligations.GenerationCountsLives := by
  unfold Obligations.GenerationCountsLives
  refine ⟨fun s t i h => ?_, fun c s t i hc h => ?_, fun s i => ⟨handleOf_high i _, handleOf_low i _⟩⟩
  · obtain rfl : s.deviceReset = t := Host.Outcome.next.inj h
    simp [State.desc, State.deviceReset, State.reset]
  · obtain ⟨u, hu, hcount⟩ := exec_ages_or_fills c s hc
    obtain rfl : u = t := Host.Outcome.next.inj (hu.symm.trans h)
    rcases hcount with hages | hfills
    · exact (hages i).2
    · exact (hfills i).generation

end Sys2Proof.Machine

/-!
PROOFS. The block pool: ALLOCATE (R25 to R27), GRANT (R33, R34) and the two queries (R35, R57). Each request's settlement
is said once, row by row, as an equation; the fields of a word are read back by one lemma for the field's own bits and one
for bits outside it.
-/

namespace Sys2Proof.Machine

/-! ### The fields of a word (R178) -/

theorem field_getLsbD (lsb width v j : Nat) :
    (field lsb width v).getLsbD j =
      (decide (j < 16) && (decide (lsb ≤ j) && (decide (j - lsb < width) && v.testBit (j - lsb)))) := by
  rw [field, BitVec.getLsbD_ofNat, Nat.mul_comm, Nat.testBit_two_pow_mul, Nat.testBit_mod_two_pow]

/-- A field's own bits hold its value, cut to the field's width. -/
theorem field_extract_same {lsb width : Nat} (v : Nat) (h : lsb + width ≤ 16) :
    ((field lsb width v).extractLsb' lsb width).toNat = v % 2 ^ width := by
  apply Nat.eq_of_testBit_eq
  intro j
  rw [BitVec.testBit_toNat, BitVec.getLsbD_extractLsb', field_getLsbD, Nat.testBit_mod_two_pow, Nat.add_sub_cancel_left]
  by_cases hj : j < width
  · have h16 : lsb + j < 16 := by omega
    simp [hj, h16]
  · simp [hj]

theorem field_getLsbD_outside {lsb width j : Nat} (v : Nat) (h : j < lsb ∨ lsb + width ≤ j) :
    (field lsb width v).getLsbD j = false := by
  have hout : ¬(lsb ≤ j ∧ j - lsb < width) := by omega
  rw [field_getLsbD]
  simp only [Bool.and_eq_false_imp, decide_eq_true_eq]
  exact fun _ hl hw => absurd ⟨hl, hw⟩ hout

/-- Bits that lie outside a field are zero in it. -/
theorem field_extract_outside {lsb width a n : Nat} (v : Nat) (h : a + n ≤ lsb ∨ lsb + width ≤ a) :
    (field lsb width v).extractLsb' a n = 0#n := by
  apply BitVec.eq_of_getLsbD_eq
  intro j hj
  rw [BitVec.getLsbD_extractLsb', field_getLsbD_outside v (by omega), Bool.and_false, BitVec.getLsbD_zero]

/-- A one-bit field is its value's lowest bit. -/
theorem field_flag_getLsbD {lsb : Nat} (b : Bool) (h : lsb < 16) : (field lsb 1 (flag b)).getLsbD lsb = b := by
  rw [field_getLsbD]
  cases b <;> simp [flag, h]

@[simp] theorem flag_false : flag false = 0 := rfl

@[simp] theorem field_zero (lsb width : Nat) : field lsb width 0 = 0#16 := by simp [field]

/-! ### Codes -/

theorem portCode_mod (p : Port) : portCode p % 8 = portCode p := by cases p <;> rfl

theorem chanKindCode_mod (k : ChanKind) : chanKindCode k % 4 = chanKindCode k := by cases k <;> rfl

theorem chanStateCode_mod (x : ChanState) : chanStateCode x % 4 = chanStateCode x := by cases x <;> rfl

/-- A number that is absent is zero, before and after it is cut. -/
theorem elim_zero_mod {α : Type} (o : Option α) (f : α → Nat) (n : Nat) :
    o.elim 0 f % n = o.elim 0 (fun x => f x % n) := by cases o <;> simp

/-- The peer port field names the port of its code (R177). -/
theorem portOf_eq_some_iff (x : BitVec 3) (q : Port) : portOf x = some q ↔ portCode q = x.toNat := by
  cases q <;> revert x <;> decide

/-- The codes 0 and 5 to 7 name no port (R177). -/
theorem portOf_eq_none_iff (x : BitVec 3) : portOf x = none ↔ x.toNat < 1 ∨ 4 < x.toNat := by
  revert x; decide

/-! ### Requests that are outstanding -/

/-- What stands outstanding is read from the port's own HPI. -/
theorem State.hasRequest.of_hpi {s t : State} {p : Port} {tag : Tag} {k : ReqKind} (h : s.hasRequest p tag k)
    (e : t.hpi p = s.hpi p) : t.hasRequest p tag k := by
  unfold State.hasRequest
  rw [e]
  exact h

/-- A command that settles the presented request by a completion alone. -/
theorem State.presents.completes {s : State} {k : ReqKind} {p : Port} {r : Request} {c : Instr} {code : ResultCode}
    {v : Vals} (h : s.presents k p r) (e : exec c s = .next (s.complete p r.tag code v)) :
    ∃ t, exec c s = .next t ∧ s.onlyCompletes t p r code v := ⟨_, e, h.onlyCompletes code v⟩

/-! ### ALLOCATE (R25 to R27) -/

theorem State.presents.exec_allocate {s : State} {p : Port} {r : Request} (h : s.presents .allocate p r) :
    exec (.allocate p) s = .next (settleAllocate r p s) := congrArg Host.Outcome.next (h.present settleAllocate)

/-- The first check of R25 that fails. -/
theorem State.firstFail_allocChecks (s : State) (p : Port) (r : Request) :
    firstFail (s.allocChecks p r) =
      if r.count.toNat < 1 ∨ 16 < r.count.toNat then some .badRequest
      else if s.quotas.get p < s.charged p + s.waitingDemand p + r.count.toNat then some .overQuota else none := by
  simp only [State.allocChecks, firstFail, decide_eq_true_eq]

theorem settleAllocate_refused {s : State} {p : Port} {r : Request} {code : ResultCode}
    (h : firstFail (s.allocChecks p r) = some code) : settleAllocate r p s = s.complete p r.tag code {} := by
  simp only [settleAllocate, h]

/-- The first row of R26: nobody waits and the blocks can be given. -/
theorem settleAllocate_satisfied {s : State} {p : Port} {r : Request} {i : DescIx}
    (h : firstFail (s.allocChecks p r) = none) (hw : s.allocWaits = []) (hg : s.canGive r.count.toNat = some i) :
    settleAllocate r p s = s.satisfy p r.tag r.count.toNat i := by
  simp only [settleAllocate, h, hw, hg]

/-- The other rows of R26: somebody waits already, or the blocks cannot be given. -/
theorem settleAllocate_unsatisfied {s : State} {p : Port} {r : Request} (h : firstFail (s.allocChecks p r) = none)
    (hg : s.allocWaits ≠ [] ∨ s.canGive r.count.toNat = none) :
    settleAllocate r p s =
      if r.limit = 0#16 then s.complete p r.tag .noBuffer {} else s.joinAllocWaits p r := by
  simp only [settleAllocate, h]
  split
  next hw hi => simp [hw, hi] at hg
  next => rfl

theorem markBlocks_block (bs : List BlockIx) (y : BlockRec) (s : State) (b : BlockIx) :
    (bs.foldl (fun s b => s.setBlock b y) s).block b = if b ∈ bs then y else s.block b := by
  induction bs generalizing s with
  | nil => simp
  | cons c rest ih =>
    rw [List.foldl_cons, ih, State.block_setBlock]
    by_cases hr : b ∈ rest
    · simp [hr]
    · simp [hr, eq_comm (a := c)]

/-- An allocation lends the descriptor with the first blocks of the free list (R13, R19). -/
theorem State.lentTo_allocTo (s : State) (p : Port) (n : Nat) (i : DescIx) : s.lentTo (s.allocTo p n i) p n i := by
  have hblock (b : BlockIx) :
      (s.allocTo p n i).block b = if b ∈ s.freeList.take n then ⟨.inUse, false⟩ else s.block b :=
    markBlocks_block (s.freeList.take n) ⟨.inUse, false⟩ { s with freeList := s.freeList.drop n } b
  obtain ⟨x, h⟩ := s.allocTo_frame p n i
  refine ⟨?_, fun j hj => ?_, ?_, hblock⟩
  · rw [h]
    exact s.desc_setLife_same i _
  · rw [h]
    exact s.desc_setLife_ne _ hj.symm
  · rw [h]

/-- A wait limit other than 65535 starts a timer (R27). -/
theorem waitTimer_eq (limit : Word) :
    waitTimer limit = if limit.toNat = 65535 then none else some (.running limit.toNat) := by
  have h : limit = 0xFFFF#16 ↔ limit.toNat = 65535 := by rw [BitVec.toNat_eq]; rfl
  simp only [waitTimer, h]

/-- ALLOCATE satisfied at once: the loan and the completion, and nothing else (R13, R19, R26). -/
theorem State.satisfy_spec {s : State} {p : Port} {tag : Tag} (h : s.hasRequest p tag .allocate) (n : Nat) (i : DescIx) :
    s.lentTo (s.satisfy p tag n i) p n i ∧
      (s.satisfy p tag n i).hpi p =
        (s.hpi p).afterCompletion tag .allocate .done { blockCount := n, v0 := s.handle i } s.stamp ∧
      s.othersKept (s.satisfy p tag n i) p ∧
      s.satisfy p tag n i = { s with
        ports := (s.satisfy p tag n i).ports, descs := (s.satisfy p tag n i).descs,
        blocks := (s.satisfy p tag n i).blocks, freeList := (s.satisfy p tag n i).freeList } := by
  obtain ⟨x, ha⟩ := s.allocTo_frame p n i
  have hhpi (q : Port) : (s.allocTo p n i).hpi q = s.hpi q := by rw [ha]; rfl
  rw [State.satisfy, State.complete_eq _ p tag .allocate .done _ (h.of_hpi (hhpi p)), hhpi]
  refine ⟨s.lentTo_allocTo p n i, ?_, fun q hq => ?_, ?_⟩
  · rw [State.hpi_setHpi_same, ha]
    rfl
  · rw [State.hpi_setHpi_ne _ _ hq.symm, hhpi]
  · rw [ha]
    rfl

/-- Settles O38, by the checks of R25 and then the rows of R26. -/
theorem allocateSettled : Obligations.AllocateSettled := by
  unfold Obligations.AllocateSettled
  intro s p r h
  have hchecks := s.firstFail_allocChecks p r
  have hrefused {code : ResultCode} (hs : settleAllocate r p s = s.complete p r.tag code {}) :=
    h.completes (h.exec_allocate.trans (congrArg _ hs))
  dsimp only
  by_cases hcount : r.count.toNat < 1 ∨ 16 < r.count.toNat
  · rw [if_pos hcount] at hchecks ⊢
    exact hrefused (settleAllocate_refused hchecks)
  rw [if_neg hcount] at hchecks ⊢
  by_cases hquota : s.quotas.get p < s.charged p + s.waitingDemand p + r.count.toNat
  · rw [if_pos hquota] at hchecks ⊢
    exact hrefused (settleAllocate_refused hchecks)
  rw [if_neg hquota] at hchecks ⊢
  refine ⟨fun i hw hn hi => ?_, fun hu => ?_⟩
  · exact ⟨_, by rw [h.exec_allocate, settleAllocate_satisfied hchecks hw (s.canGive_eq _ i hn hi)],
      State.satisfy_spec h.hasRequest _ i⟩
  · have hs := settleAllocate_unsatisfied hchecks (hu.imp_right (s.canGive_none _))
    refine ⟨fun hl => hrefused (by rw [hs, if_pos hl]), fun hl => ?_⟩
    rw [h.exec_allocate, hs, if_neg hl, State.joinAllocWaits, State.leaveOutstanding_eq, waitTimer_eq]
    rfl

/-! ### GRANT (R33, R34) -/

theorem State.presents.exec_grant {s : State} {p : Port} {r : Request} (h : s.presents .grant p r) :
    exec (.grant p) s = .next (settleGrant r p s) := congrArg Host.Outcome.next (h.present settleGrant)

/-- The field range check of R33. -/
theorem settleGrant_badField {s : State} {p : Port} {r : Request}
    (h : r.peer.toNat < 1 ∨ 4 < r.peer.toNat ∨ r.count.toNat < 1 ∨ 512 < r.count.toNat) :
    settleGrant r p s = s.complete p r.tag .badRequest {} := by
  have hfail : ((portOf r.peer).isNone || decide (r.count.toNat < 1 ∨ 512 < r.count.toNat)) = true := by
    rw [Bool.or_eq_true, Option.isNone_iff_eq_none, portOf_eq_none_iff, decide_eq_true_eq]
    omega
  simp only [settleGrant, State.grantChecks, firstFail, hfail, if_true]

/-- The checks that are left once the fields of a GRANT are in range and name the port `q` (R33). -/
theorem State.firstFail_grantChecks {s : State} {p q : Port} {r : Request} (hq : portCode q = r.peer.toNat)
    (h1 : 1 ≤ r.count.toNat) (h512 : r.count.toNat ≤ 512) :
    firstFail (s.grantChecks p r) =
      if q = p then some .badRequest
      else if s.quotas.get p < r.count.toNat + (s.charged p + s.waitingDemand p) then some .overQuota else none := by
  have hrange : ¬(r.count.toNat < 1 ∨ 512 < r.count.toNat) := by omega
  simp only [State.grantChecks, firstFail, (portOf_eq_some_iff r.peer q).2 hq, decide_eq_false hrange, Option.isNone_some,
    Bool.or_false, Bool.false_eq_true, if_false, decide_eq_true_eq, beq_iff_eq, Option.some.injEq, Nat.add_assoc]

theorem settleGrant_refused {s : State} {p : Port} {r : Request} {code : ResultCode}
    (h : firstFail (s.grantChecks p r) = some code) : settleGrant r p s = s.complete p r.tag code {} := by
  simp only [settleGrant, h]

theorem settleGrant_passed {s : State} {p q : Port} {r : Request} (hq : portCode q = r.peer.toNat)
    (h : firstFail (s.grantChecks p r) = none) : settleGrant r p s = s.moveQuota p q r := by
  simp only [settleGrant, h, (portOf_eq_some_iff r.peer q).2 hq]

/-- The quotas once `k` blocks of `p`'s have moved to `q` (R34). -/
def State.quotasMoved (s : State) (p q : Port) (k : Nat) : PerPort Nat :=
  (s.quotas.set p (s.quotas.get p - k)).set q (s.quotas.get q + k)

theorem State.quotasMoved_giver (s : State) {p q : Port} (k : Nat) (h : q ≠ p) :
    (s.quotasMoved p q k).get p = s.quotas.get p - k := by
  rw [State.quotasMoved, PerPort.get_set, if_neg h, PerPort.get_set_same]

theorem State.quotasMoved_receiver (s : State) (p q : Port) (k : Nat) :
    (s.quotasMoved p q k).get q = s.quotas.get q + k := PerPort.get_set_same _ _ _

theorem State.quotasMoved_other (s : State) {p q x : Port} (k : Nat) (hp : x ≠ p) (hq : x ≠ q) :
    (s.quotasMoved p q k).get x = s.quotas.get x := by
  rw [State.quotasMoved, PerPort.get_set, if_neg hq.symm, PerPort.get_set, if_neg hp.symm]

/-- A GRANT that passes its checks: the quotas, the receiver's notice and the requester's completion (R34). -/
theorem State.moveQuota_eq {s : State} {p q : Port} {r : Request} (hreq : s.hasRequest p r.tag .grant) (hqp : q ≠ p) :
    s.moveQuota p q r =
      (({ s with quotas := s.quotasMoved p q r.count.toNat } : State).setHpi q
        ((s.hpi q).afterNotice .quotaGranted
          { v0 := word (portCode p), v1 := word r.count.toNat, v2 := word (s.quotas.get q + r.count.toNat) }
          s.stamp)).setHpi p
        ((s.hpi p).afterCompletion r.tag .grant .done { v0 := word (s.quotas.get p - r.count.toNat) } s.stamp) := by
  simp only [State.moveQuota]
  rw [State.notice_eq, State.complete_eq (k := .grant), State.hpi_setHpi_ne _ _ hqp]
  · rfl
  · exact hreq.of_hpi (State.hpi_setHpi_ne _ _ hqp)

/-- Settles O40, by the checks of R33 in order. -/
theorem grantMovesQuota : Obligations.GrantMovesQuota := by
  unfold Obligations.GrantMovesQuota
  intro s p r h
  have hrefused {code : ResultCode} (hs : settleGrant r p s = s.complete p r.tag code {}) :=
    h.completes (h.exec_grant.trans (congrArg _ hs))
  refine ⟨fun hf => hrefused (settleGrant_badField hf), fun q hq h1 h512 => ?_⟩
  have hchecks := State.firstFail_grantChecks (s := s) (p := p) hq h1 h512
  refine ⟨fun hqp => ?_, fun hqp hover => ?_, fun hqp hfits => ?_⟩
  · exact hrefused (settleGrant_refused (by rw [hchecks, if_pos hqp]))
  · exact hrefused (settleGrant_refused (by rw [hchecks, if_neg hqp, if_pos hover]))
  · have hpass : firstFail (s.grantChecks p r) = none := by rw [hchecks, if_neg hqp, if_neg (Nat.not_lt.2 hfits)]
    refine ⟨_, by rw [h.exec_grant, settleGrant_passed hq hpass, State.moveQuota_eq h.hasRequest hqp], ?_⟩
    rw [State.setHpi_quotas, State.setHpi_quotas, s.quotasMoved_giver _ hqp, s.quotasMoved_receiver]
    refine ⟨by omega, rfl, fun x hp hx => s.quotasMoved_other _ hp hx, State.hpi_setHpi_same _ _ _, ?_, fun x hp hx => ?_,
      rfl⟩
    · rw [State.hpi_setHpi_ne _ _ hqp.symm, State.hpi_setHpi_same]
      rfl
    · rw [State.hpi_setHpi_ne _ _ hp.symm, State.hpi_setHpi_ne _ _ hx.symm]
      rfl

/-! ### The queries (R35, R57) -/

theorem State.presents.exec_queryPool {s : State} {p : Port} {r : Request} (h : s.presents .queryPool p r) :
    exec (.queryPool p) s = .next (s.complete p r.tag .done (s.poolVals p)) :=
  congrArg Host.Outcome.next (h.present settleQueryPool)

theorem State.presents.exec_queryChannel {s : State} {p : Port} {r : Request} (h : s.presents .queryChannel p r) :
    exec (.queryChannel p) s = .next (settleQueryChannel r p s) :=
  congrArg Host.Outcome.next (h.present settleQueryChannel)

theorem settleQueryChannel_badField {s : State} {p : Port} {r : Request} (h : 16 ≤ r.channel.toNat) :
    settleQueryChannel r p s = s.complete p r.tag .badRequest {} := by
  simp only [settleQueryChannel, Request.channelBad, decide_eq_true h, if_true]

theorem settleQueryChannel_named {s : State} {p : Port} {r : Request} {k : ChanIx} (h : r.channel.toNat = k.val) :
    settleQueryChannel r p s = s.complete p r.tag .done (s.channelVals k) := by
  have hk : r.chan = k := Fin.ext (by simp only [Request.chan, h]; omega)
  have hgood : ¬16 ≤ r.channel.toNat := by omega
  simp only [settleQueryChannel, Request.channelBad, decide_eq_false hgood, hk, Bool.false_eq_true, if_false]

theorem State.forwardCount_eq (s : State) (k : ChanIx) : s.forwardCount k = (s.forward k).length := by
  cases h : (s.chan k).active? <;> simp [State.forwardCount, State.forward, h]

theorem State.returnCount_eq (s : State) (k : ChanIx) : s.returnCount k = (s.returns k).length := by
  cases h : (s.chan k).active? <;> simp [State.returnCount, State.returns, h]

/-! #### The five values of QUERY_CHANNEL, alike in every state of the channel: a field that is absent is zero -/

section
variable (s : State) (k : ChanIx)

theorem State.channelVals_v0 : (s.channelVals k).v0 =
    field 0 2 (chanStateCode (s.chan k).state) ||| field 2 2 ((s.chan k).params?.elim 0 fun m => chanKindCode m.kind)
      ||| field 4 3 ((s.chan k).params?.elim 0 fun m => portCode m.producer)
      ||| field 7 3 ((s.chan k).params?.elim 0 fun m => portCode m.consumer)
      ||| field 10 6 ((s.chan k).params?.elim 0 (·.depthLimit)) := by
  cases h : s.chan k <;> simp [State.channelVals, h, Chan.params?, Chan.active?]

theorem State.channelVals_v1 : (s.channelVals k).v1 = word ((s.chan k).params?.elim 0 (·.holdLimit)) := by
  cases h : s.chan k <;> simp [State.channelVals, h, Chan.params?, Chan.active?, word]

theorem State.channelVals_v2 : (s.channelVals k).v2 =
    field 0 6 (s.forward k).length ||| field 6 6 (s.heldCount k)
      ||| field 12 4 ((s.chan k).params?.elim 0 (·.renewLimit)) := by
  cases h : s.chan k <;> simp [State.channelVals, h, Chan.params?, Chan.active?, State.forwardCount_eq]

theorem State.channelVals_v3 : (s.channelVals k).v3 =
    field 0 6 (s.returns k).length ||| field 14 1 (flag ((s.chan k).active?.elim false (·.closedProducer)))
      ||| field 15 1 (flag ((s.chan k).active?.elim false (·.closedConsumer))) := by
  cases h : s.chan k <;> simp [State.channelVals, h, Chan.params?, Chan.active?, State.returnCount_eq]

theorem State.channelVals_v4 : (s.channelVals k).v4 = (s.chan k).active?.elim 0#16 (·.nextSequence) := by
  cases h : s.chan k <;> simp [State.channelVals, h, Chan.params?, Chan.active?]

/-- A QUERY_CHANNEL completion carries no channel, block count or damaged flag (R144). -/
theorem State.channelVals_rest :
    (s.channelVals k).channel = 0#4 ∧ (s.channelVals k).blockCount = 0 ∧ (s.channelVals k).damaged = false := by
  cases h : s.chan k <;> simp [State.channelVals, h, Chan.params?, Chan.active?]

end

/-! #### The bits of the packed values (R178) -/

/-- The bits of V4 of a QUERY_POOL completion. -/
theorem State.poolVals_v4_bits (s : State) (p : Port) :
    ((s.poolVals p).v4.extractLsb' 0 10).toNat = s.charged p % 1024 ∧
      ((s.poolVals p).v4.extractLsb' 10 5).toNat = s.allocWaits.head?.elim 0 (·.count) % 32 ∧
      (s.poolVals p).v4.getLsbD 15 = s.retest.isSome := by
  simp only [State.poolVals, BitVec.extractLsb'_or, BitVec.getLsbD_or]
  simp (disch := omega) only [field_extract_same, field_extract_outside, field_flag_getLsbD, field_getLsbD_outside,
    BitVec.or_zero, BitVec.zero_or, Bool.false_or, Nat.reducePow, and_self]

section
variable (s : State) (k : ChanIx)

/-- The bits of V0 of a QUERY_CHANNEL completion. -/
theorem State.channelVals_v0_bits :
    ((s.channelVals k).v0.extractLsb' 0 2).toNat = chanStateCode (s.chan k).state ∧
      ((s.channelVals k).v0.extractLsb' 2 2).toNat = (s.chan k).params?.elim 0 (fun m => chanKindCode m.kind) ∧
      ((s.channelVals k).v0.extractLsb' 4 3).toNat = (s.chan k).params?.elim 0 (fun m => portCode m.producer) ∧
      ((s.channelVals k).v0.extractLsb' 7 3).toNat = (s.chan k).params?.elim 0 (fun m => portCode m.consumer) ∧
      ((s.channelVals k).v0.extractLsb' 10 6).toNat = (s.chan k).params?.elim 0 (fun m => m.depthLimit % 64) := by
  simp only [State.channelVals_v0, BitVec.extractLsb'_or]
  simp (disch := omega) only [field_extract_same, field_extract_outside, BitVec.or_zero, BitVec.zero_or, Nat.reducePow,
    elim_zero_mod, chanStateCode_mod, chanKindCode_mod, portCode_mod, and_self]

/-- The bits of V2 of a QUERY_CHANNEL completion. -/
theorem State.channelVals_v2_bits :
    ((s.channelVals k).v2.extractLsb' 0 6).toNat = (s.forward k).length % 64 ∧
      ((s.channelVals k).v2.extractLsb' 6 6).toNat = s.heldCount k % 64 ∧
      ((s.channelVals k).v2.extractLsb' 12 4).toNat = (s.chan k).params?.elim 0 (fun m => m.renewLimit % 16) := by
  simp only [State.channelVals_v2, BitVec.extractLsb'_or]
  simp (disch := omega) only [field_extract_same, field_extract_outside, BitVec.or_zero, BitVec.zero_or, Nat.reducePow,
    elim_zero_mod, and_self]

/-- The bits of V3 of a QUERY_CHANNEL completion. -/
theorem State.channelVals_v3_bits :
    ((s.channelVals k).v3.extractLsb' 0 6).toNat = (s.returns k).length % 64 ∧
      (s.channelVals k).v3.extractLsb' 6 8 = 0#8 ∧
      (s.channelVals k).v3.getLsbD 14 = (s.chan k).active?.elim false (·.closedProducer) ∧
      (s.channelVals k).v3.getLsbD 15 = (s.chan k).active?.elim false (·.closedConsumer) := by
  simp only [State.channelVals_v3, BitVec.extractLsb'_or, BitVec.getLsbD_or]
  simp (disch := omega) only [field_extract_same, field_extract_outside, field_flag_getLsbD, field_getLsbD_outside,
    BitVec.or_zero, Bool.false_or, Bool.or_false, Nat.reducePow, and_self]

end

/-- Settles O41, value by value. -/
theorem queriesReportTheState : Obligations.QueriesReportTheState := by
  unfold Obligations.QueriesReportTheState
  refine ⟨fun s p r h => ?_, fun s p r h => ⟨fun hbad => ?_, fun k hk => ?_⟩⟩
  · obtain ⟨hcharged, hhead, hretest⟩ := s.poolVals_v4_bits p
    obtain ⟨t, ht, honly⟩ := h.completes h.exec_queryPool
    refine ⟨t, _, ht, honly, rfl, rfl, rfl, rfl, hcharged, ?_, ?_, rfl, rfl, rfl⟩
    · rw [hhead]
      cases s.allocWaits <;> rfl
    · rw [hretest, Option.isSome_iff_ne_none]
  · exact h.completes (h.exec_queryChannel.trans (congrArg _ (settleQueryChannel_badField hbad)))
  · obtain ⟨t, ht, honly⟩ := h.completes (h.exec_queryChannel.trans (congrArg _ (settleQueryChannel_named hk)))
    obtain ⟨hstate, hkind, hproducer, hconsumer, hdepth⟩ := s.channelVals_v0_bits k
    obtain ⟨hforward, hheld, hrenew⟩ := s.channelVals_v2_bits k
    obtain ⟨hreturns, hunused, hclosedP, hclosedC⟩ := s.channelVals_v3_bits k
    refine ⟨t, _, ht, honly, hstate.trans ?_, hkind, hproducer, hconsumer, hdepth, s.channelVals_v1 k, hforward, hheld,
      hrenew, hreturns, hunused, hclosedP, hclosedC, s.channelVals_v4 k, s.channelVals_rest k⟩
    cases (s.chan k).state <;> rfl

end Sys2Proof.Machine

/-!
PROOFS. The end of an offer: ACCEPT (R46), REJECT (R47), WITHDRAW (R48) and offer expiry (R49). The three requests share one
shape, named here, so that their refusals are shown once; what is left of each is its effect, in which two records of the
HPIs and one channel are updated.
-/

namespace Sys2Proof.Machine

/-! ### The channel a request names -/

theorem Request.channelBad_of_ge {r : Request} (h : 16 ≤ r.channel.toNat) : r.channelBad = true := decide_eq_true h

theorem Request.channelBad_of_eq {r : Request} {k : ChanIx} (h : r.channel.toNat = k.val) : r.channelBad = false :=
  decide_eq_false (by omega)

theorem Request.chan_of_eq {r : Request} {k : ChanIx} (h : r.channel.toNat = k.val) : r.chan = k :=
  Fin.ext (by simp only [Request.chan, h]; omega)

/-! ### Completions and notices at two ports -/

/-- Completions at two ports: the HPI of each is updated from what it was (R142). -/
theorem State.complete_complete_eq {s : State} {p q : Port} {tag tag' : Tag} {j k : ReqKind} (hqp : q ≠ p)
    (hq : s.hasRequest q tag j) (hp : s.hasRequest p tag' k) (code code' : ResultCode) (v v' : Vals) :
    (s.complete q tag code v).complete p tag' code' v' =
      (s.setHpi p ((s.hpi p).afterCompletion tag' k code' v' s.stamp)).setHpi q
        ((s.hpi q).afterCompletion tag j code v s.stamp) := by
  have hkept (h : Hpi) : (s.setHpi q h).hpi p = s.hpi p := s.hpi_setHpi_ne h hqp
  rw [State.complete_eq s q tag j code v hq, State.complete_eq _ p tag' k code' v' (hp.of_hpi (hkept _)), hkept,
    State.stamp_setHpi, State.setHpi_comm s hqp]

/-- Completions of two requests of one port, in order (R142). -/
theorem State.complete_complete_same {s : State} {p : Port} {tag tag' : Tag} {j k : ReqKind} (hjk : j ≠ k)
    (h : s.hasRequest p tag j) (h' : s.hasRequest p tag' k) (code code' : ResultCode) (v v' : Vals) :
    (s.complete p tag code v).complete p tag' code' v' =
      s.setHpi p (((s.hpi p).afterCompletion tag j code v s.stamp).afterCompletion tag' k code' v' s.stamp) := by
  have hlater := h'.after (h'.tag_ne h hjk.symm) (b := tag) (k := j) code v s.stamp
  rw [State.complete_eq s p tag j code v h, State.complete_eq _ p tag' k code' v' hlater, State.hpi_setHpi_same,
    State.stamp_setHpi, State.setHpi_setHpi]

/-- A notice for another port than the one just updated (R152). -/
theorem State.notice_setHpi_ne (s : State) {p q : Port} (hpq : p ≠ q) (h : Hpi) (k : NoticeKind) (v : Vals) :
    (s.setHpi p h).notice q k v = (s.setHpi p h).setHpi q ((s.hpi q).afterNotice k v s.stamp) := by
  rw [State.notice_eq, State.hpi_setHpi_ne s h hpq, State.stamp_setHpi]

/-! ### The shape of an answer to an offer -/

/-- A request that ends an offer, made by the port that `ends` names: BAD_REQUEST outside channels 0 to 15, NO_OFFER unless
the channel is OFFERED and `ends` names the requester, and otherwise `effect` on that channel. -/
def settleAnswer (ends : ChanParams → Port) (effect : ChanIx → ChanParams → Tag → State) (r : Request) (p : Port)
    (s : State) : State :=
  if r.channelBad then s.complete p r.tag .badRequest {}
  else
    match s.chan r.chan with
    | .offered m tag _ => if ends m = p then effect r.chan m tag else s.complete p r.tag .noOffer {}
    | .unbound | .active _ => s.complete p r.tag .noOffer {}

theorem settleAccept_eq (r : Request) (p : Port) (s : State) :
    settleAccept r p s = settleAnswer ChanParams.consumer (fun c m tag =>
      ((s.setChan c (.active (Active.opened m))).complete m.producer tag .done (offerVals c m)).complete p r.tag .done
        { channel := chanField c, v0 := offerWord m, v1 := word m.holdLimit }) r p s := rfl

theorem settleReject_eq (r : Request) (p : Port) (s : State) :
    settleReject r p s = settleAnswer ChanParams.consumer (fun c m tag =>
      ((s.setChan c .unbound).complete m.producer tag .rejected (offerVals c m)).complete p r.tag .done
        { channel := chanField c }) r p s := rfl

theorem settleWithdraw_eq (r : Request) (p : Port) (s : State) :
    settleWithdraw r p s = settleAnswer ChanParams.producer (fun c m tag =>
      (((s.setChan c .unbound).complete p tag .withdrawn (offerVals c m)).complete p r.tag .done
        { channel := chanField c }).notice m.consumer .channelUnbound { channel := chanField c }) r p s := rfl

section
variable {ends : ChanParams → Port} {effect : ChanIx → ChanParams → Tag → State} {s : State} {p : Port} {r : Request}

theorem settleAnswer_badField (h : 16 ≤ r.channel.toNat) :
    settleAnswer ends effect r p s = s.complete p r.tag .badRequest {} := by
  rw [settleAnswer, if_pos (Request.channelBad_of_ge h)]

theorem settleAnswer_noOffer {k : ChanIx} (hk : r.channel.toNat = k.val)
    (hno : ∀ m tag timer, s.chan k = .offered m tag timer → ends m ≠ p) :
    settleAnswer ends effect r p s = s.complete p r.tag .noOffer {} := by
  simp only [settleAnswer, Request.channelBad_of_eq hk, Request.chan_of_eq hk, Bool.false_eq_true, if_false]
  split
  next m tag timer hc => rw [if_neg (hno m tag timer hc)]
  all_goals rfl

theorem settleAnswer_offered {k : ChanIx} {m : ChanParams} {tag : Tag} {timer : Timer} (hk : r.channel.toNat = k.val)
    (hc : s.chan k = .offered m tag timer) (hp : ends m = p) :
    settleAnswer ends effect r p s = effect k m tag := by
  simp only [settleAnswer, Request.channelBad_of_eq hk, Request.chan_of_eq hk, Bool.false_eq_true, if_false, hc, if_pos hp]

/-- The two refusals of a request that ends an offer. -/
theorem State.presents.answer_refused {kind : ReqKind} {c : Instr} (h : s.presents kind p r)
    (e : exec c s = .next (settleAnswer ends effect r p s)) :
    (16 ≤ r.channel.toNat → ∃ t, exec c s = .next t ∧ s.onlyCompletes t p r .badRequest {}) ∧
      ∀ k : ChanIx, r.channel.toNat = k.val →
        (∀ m tag timer, s.chan k = .offered m tag timer → ends m ≠ p) →
          ∃ t, exec c s = .next t ∧ s.onlyCompletes t p r .noOffer {} :=
  ⟨fun hbad => h.completes (e.trans (congrArg _ (settleAnswer_badField hbad))),
    fun _ hk hno => h.completes (e.trans (congrArg _ (settleAnswer_noOffer hk hno)))⟩

theorem State.presents.exec_accept (h : s.presents .accept p r) : exec (.accept p) s = .next (settleAccept r p s) :=
  congrArg Host.Outcome.next (h.present settleAccept)

theorem State.presents.exec_reject (h : s.presents .reject p r) : exec (.reject p) s = .next (settleReject r p s) :=
  congrArg Host.Outcome.next (h.present settleReject)

theorem State.presents.exec_withdraw (h : s.presents .withdraw p r) :
    exec (.withdraw p) s = .next (settleWithdraw r p s) := congrArg Host.Outcome.next (h.present settleWithdraw)

end

/-! ### The effects -/

section
variable {s : State} {m : ChanParams} {tag : Tag}

/-- An offer answered by its consumer `p`: the channel as the answer has it, the OFFER and the answer completed (R46, R47). -/
theorem State.answeredByConsumer_eq {p : Port} {own : Tag} {k : ReqKind} (hends : m.producer ≠ p)
    (hoffer : s.hasRequest m.producer tag .offer) (hown : s.hasRequest p own k) (c : ChanIx) (x : Chan) (code : ResultCode)
    (o v : Vals) :
    ((s.setChan c x).complete m.producer tag code o).complete p own .done v =
      ((s.setHpi p ((s.hpi p).afterCompletion own k .done v s.stamp)).setHpi m.producer
        ((s.hpi m.producer).afterCompletion tag .offer code o s.stamp)).setChan c x :=
  State.complete_complete_eq hends (hoffer.of_hpi (s.hpi_setChan c x _)) (hown.of_hpi (s.hpi_setChan c x _)) ..

/-- An offer withdrawn by its producer: the OFFER completes ahead of the WITHDRAW, and the consumer is notified (R48). -/
theorem State.withdrawn_eq {own : Tag} (hends : m.producer ≠ m.consumer) (hoffer : s.hasRequest m.producer tag .offer)
    (hown : s.hasRequest m.producer own .withdraw) (c : ChanIx) (o v : Vals) :
    (((s.setChan c .unbound).complete m.producer tag .withdrawn o).complete m.producer own .done v).notice m.consumer
        .channelUnbound v =
      ((s.setHpi m.producer (((s.hpi m.producer).afterCompletion tag .offer .withdrawn o s.stamp).afterCompletion own
        .withdraw .done v s.stamp)).setHpi m.consumer
          ((s.hpi m.consumer).afterNotice .channelUnbound v s.stamp)).setChan c .unbound := by
  rw [State.complete_complete_same (by decide : ReqKind.offer ≠ .withdraw) (hoffer.of_hpi (s.hpi_setChan c _ _))
    (hown.of_hpi (s.hpi_setChan c _ _)), State.notice_setHpi_ne _ hends]
  rfl

/-- An offer whose timer has run out: the OFFER completes and the consumer is notified (R49). -/
theorem State.expireOffer_ranOut {k : ChanIx} (hc : s.chan k = .offered m tag .ranOut) (hends : m.producer ≠ m.consumer)
    (hoffer : s.hasRequest m.producer tag .offer) :
    s.expireOffer k =
      ((s.setHpi m.producer ((s.hpi m.producer).afterCompletion tag .offer .expired (offerVals k m) s.stamp)).setHpi
        m.consumer ((s.hpi m.consumer).afterNotice .channelUnbound { channel := chanField k } s.stamp)).setChan
          k .unbound := by
  simp only [State.expireOffer, hc]
  rw [State.complete_eq _ _ _ .offer _ _ (hoffer.of_hpi (s.hpi_setChan k _ _)), State.notice_setHpi_ne _ hends]
  rfl

/-- The expiry of a channel that is no longer OFFERED (R49). -/
theorem State.expireOffer_of_not_offered {k : ChanIx} (h : (s.chan k).state ≠ .offered) : s.expireOffer k = s := by
  unfold State.expireOffer
  split
  next hc => exact absurd (congrArg Chan.state hc) h
  all_goals rfl

end

/-! ### The obligations -/

/-- Settles O48, by the two refusals common to the answers and then the consumer's answer with the channel opened. -/
theorem acceptOpensTheChannel : Obligations.AcceptOpensTheChannel := by
  unfold Obligations.AcceptOpensTheChannel
  intro s p r h
  have hexec := h.exec_accept.trans (congrArg _ (settleAccept_eq r p s))
  obtain ⟨hbad, hno⟩ := h.answer_refused hexec
  refine ⟨hbad, fun k hk => ⟨hno k hk, ?_⟩⟩
  rintro m tag timer hc rfl hends hoffer
  rw [hexec, settleAnswer_offered hk hc rfl, State.answeredByConsumer_eq hends hoffer h.hasRequest]
  rfl

/-- REJECT ends the offer (R47). -/
theorem State.presents.reject_offered {s : State} {r : Request} {k : ChanIx} {m : ChanParams} {tag : Tag} {timer : Timer}
    (h : s.presents .reject m.consumer r) (hk : r.channel.toNat = k.val) (hc : s.chan k = .offered m tag timer)
    (hends : m.producer ≠ m.consumer) (hoffer : s.hasRequest m.producer tag .offer) :
    exec (.reject m.consumer) s = .next (((s.setHpi m.consumer
      ((s.hpi m.consumer).afterCompletion r.tag .reject .done { channel := chanField k } s.stamp)).setHpi m.producer
        ((s.hpi m.producer).afterCompletion tag .offer .rejected (offerVals k m) s.stamp)).setChan k .unbound) := by
  rw [h.exec_reject, settleReject_eq, settleAnswer_offered hk hc rfl,
    State.answeredByConsumer_eq hends hoffer h.hasRequest]

/-- WITHDRAW ends the offer (R48). -/
theorem State.presents.withdraw_offered {s : State} {r : Request} {k : ChanIx} {m : ChanParams} {tag : Tag} {timer : Timer}
    (h : s.presents .withdraw m.producer r) (hk : r.channel.toNat = k.val) (hc : s.chan k = .offered m tag timer)
    (hends : m.producer ≠ m.consumer) (hoffer : s.hasRequest m.producer tag .offer) :
    exec (.withdraw m.producer) s = .next (((s.setHpi m.producer
      (((s.hpi m.producer).afterCompletion tag .offer .withdrawn (offerVals k m) s.stamp).afterCompletion r.tag .withdraw
        .done { channel := chanField k } s.stamp)).setHpi m.consumer
          ((s.hpi m.consumer).afterNotice .channelUnbound { channel := chanField k } s.stamp)).setChan k .unbound) := by
  rw [h.exec_withdraw, settleWithdraw_eq, settleAnswer_offered hk hc rfl, State.withdrawn_eq hends hoffer h.hasRequest]

/-- The refusals of REJECT and of WITHDRAW, by the end of the offer that each belongs to. -/
theorem State.presents.rejectOrWithdraw_refused {s : State} {p : Port} {r : Request} {kind : ReqKind}
    (hkind : kind = .reject ∨ kind = .withdraw) (h : s.presents kind p r) :
    (16 ≤ r.channel.toNat → ∃ t, exec (presentation kind p) s = .next t ∧ s.onlyCompletes t p r .badRequest {}) ∧
      ∀ k : ChanIx, r.channel.toNat = k.val →
        (∀ m tag timer, s.chan k = .offered m tag timer →
          (if kind = .reject then m.consumer else m.producer) ≠ p) →
            ∃ t, exec (presentation kind p) s = .next t ∧ s.onlyCompletes t p r .noOffer {} := by
  rcases hkind with rfl | rfl
  · exact h.answer_refused (h.exec_reject.trans (congrArg _ (settleReject_eq r p s)))
  · exact h.answer_refused (h.exec_withdraw.trans (congrArg _ (settleWithdraw_eq r p s)))

/-- Settles O49, by the three ways an offer ends and the refusals that REJECT and WITHDRAW share. -/
theorem offersEnd : Obligations.OffersEnd := by
  unfold Obligations.OffersEnd
  refine ⟨fun s p r kind hkind h => ?_, fun s k => ⟨fun hstate => ?_, fun m tag hc hends hoffer => ?_⟩⟩
  · obtain ⟨hbad, hno⟩ := h.rejectOrWithdraw_refused hkind
    refine ⟨hbad, fun k hk => ⟨hno k hk, fun m tag timer hc hends hoffer => ⟨?_, ?_⟩⟩⟩
    · rintro rfl rfl
      exact h.reject_offered hk hc hends hoffer
    · rintro rfl rfl
      exact h.withdraw_offered hk hc hends hoffer
  · exact congrArg Host.Outcome.next (State.expireOffer_of_not_offered hstate)
  · exact congrArg Host.Outcome.next (State.expireOffer_ranOut hc hends hoffer)

end Sys2Proof.Machine

/-!
PROOFS. REFILL (R83). The handle checks of R15 are said once, as a chain of conditions in their order, for any request kind;
REFILL's settlement is then two equations, one for a check that fails and one for a COLLECTED buffer that passes.
-/

namespace Sys2Proof.Machine

/-! ### The handle checks (R15) -/

theorem handleBad_eq (w : Word) : handleBad w = w.getLsbD 7 := rfl

/-- The first check of R15 that fails. -/
theorem State.firstFail_handleChecks (s : State) (p : Port) (w : Word) (bad : Bool) (accepts : List DescState) :
    firstFail (s.handleChecks p w bad accepts) =
      if bad = true then some .badRequest
      else if s.stale w = true then some .staleHandle
      else if (s.desc (handleIx w)).holder ≠ some p then some .notHolder
      else if (s.desc (handleIx w)).state ∉ accepts then some .wrongState else none := by
  simp only [State.handleChecks, firstFail, bne_iff_ne, Bool.not_eq_true', List.contains_eq_mem, decide_eq_false_iff_not]

theorem Desc.state_eq_collected_iff (d : Desc) : d.state = .collected ↔ ∃ b t c, d.life = .collected b t c := by
  cases h : d.life <;> simp [Desc.state, h]

/-! ### The settlement -/

theorem State.presents.exec_refill {s : State} {p : Port} {r : Request} (h : s.presents .refill p r) :
    exec (.refill p) s = .next (settleRefill r p s) := congrArg Host.Outcome.next (h.present settleRefill)

section
variable {s : State} {p : Port} {r : Request}

theorem settleRefill_refused {code : ResultCode}
    (h : firstFail (s.handleChecks p r.handle (handleBad r.handle) [.collected]) = some code) :
    settleRefill r p s = s.complete p r.tag code {} := by
  simp only [settleRefill, h]

/-- A REFILL that passes its checks: the descriptor and the requester's HPI are updated, each from what it was. -/
theorem settleRefill_collected {b : Buf} {t : Traffic} {c : Came} (hreq : s.hasRequest p r.tag .refill)
    (h : firstFail (s.handleChecks p r.handle (handleBad r.handle) [.collected]) = none)
    (hlife : (s.desc (handleIx r.handle)).life = .collected b t c) :
    settleRefill r p s = (s.setHpi p ((s.hpi p).afterCompletion r.tag .refill .done
      { v0 := r.handle, blockCount := b.blocks.length, damaged := b.damaged } s.stamp)).setDesc (handleIx r.handle)
        ⟨(s.desc (handleIx r.handle)).generation, .filling b⟩ := by
  have hbuf : (s.desc (handleIx r.handle)).buf = some b := by simp only [Desc.buf, hlife]
  have hkept : (s.setLife (handleIx r.handle) (.filling b)).hpi p = s.hpi p := s.hpi_setLife ..
  simp only [settleRefill, h, hbuf]
  rw [State.complete_eq _ _ _ _ _ _ (hreq.of_hpi hkept), hkept, State.stamp_setLife]
  exact s.setDesc_setHpi ..

end

/-- Settles O59, along the checks of R15 and then the state of the descriptor. -/
theorem refillStartsAgain : Obligations.RefillStartsAgain := by
  unfold Obligations.RefillStartsAgain
  intro s p r h i refused
  rw [← handleBad_eq]
  have hchecks := s.firstFail_handleChecks p r.handle (handleBad r.handle) [.collected]
  have hrefused (code : ResultCode)
      (hf : firstFail (s.handleChecks p r.handle (handleBad r.handle) [.collected]) = some code) : refused code :=
    h.completes (h.exec_refill.trans (congrArg _ (settleRefill_refused hf)))
  split_ifs with hbad hstale hholder
  · exact hrefused _ (by rw [hchecks, if_pos hbad])
  · exact hrefused _ (by rw [hchecks, if_neg hbad, if_pos hstale])
  · exact hrefused _ (by rw [hchecks, if_neg hbad, if_neg hstale, if_pos hholder])
  · rw [if_neg hbad, if_neg hstale, if_neg hholder] at hchecks
    have hstate : (s.desc i).state ∈ [DescState.collected] ↔ ∃ b t c, (s.desc i).life = .collected b t c :=
      List.mem_singleton.trans (s.desc i).state_eq_collected_iff
    split
    next b t c hlife =>
      have hpass := hchecks.trans (if_neg (not_not_intro (hstate.2 ⟨b, t, c, hlife⟩)))
      exact h.exec_refill.trans (congrArg _ (settleRefill_collected h.hasRequest hpass hlife))
    next hother =>
      have hout : (s.desc i).state ∉ [DescState.collected] := fun hin =>
        have ⟨b, t, c, hlife⟩ := hstate.1 hin
        hother b t c hlife
      exact hrefused _ (hchecks.trans (if_pos hout))

end Sys2Proof.Machine

/-!
PROOFS. MAP and UNMAP (R101 to R103). Their completions join one update of the requester's own HPI: the slot and the record
are written together.
-/

namespace Sys2Proof.Machine

/-! ### The slot a request names -/

theorem Request.slotBad_of_ge {r : Request} (h : 8 ≤ r.slot.toNat) : r.slotBad = true := decide_eq_true h

theorem Request.slotBad_of_eq {r : Request} {k : Fin 8} (h : k.val = r.slot.toNat) : r.slotBad = false :=
  decide_eq_false (by omega)

theorem Request.slotIx_of_eq {r : Request} {k : Fin 8} (h : k.val = r.slot.toNat) : r.slotIx = k :=
  Fin.ext (by simp only [Request.slotIx, ← h]; omega)

/-- A buffer that has a holder is FILLING, HELD or COLLECTED (R4). -/
theorem Desc.state_mem_of_holder {d : Desc} {p : Port} (h : d.holder = some p) :
    d.state ∈ [DescState.filling, .held, .collected] := by
  unfold Desc.holder at h
  unfold Desc.state
  cases hl : d.life <;> simp_all

/-- A request completes in the event that writes a slot: its port's HPI is updated once. -/
theorem State.complete_setSlot {s : State} {p : Port} {tag : Tag} {kind : ReqKind} (hreq : s.hasRequest p tag kind)
    (k : Fin 8) (x : Option Word) (code : ResultCode) (v : Vals) :
    (s.setSlot p k x).complete p tag code v = s.setHpi p
      ({ s.hpi p with apertures := (s.hpi p).apertures.set k x }.afterCompletion tag kind code v s.stamp) := by
  have hkept : (s.setSlot p k x).hasRequest p tag kind := by
    unfold State.hasRequest State.setSlot
    rw [State.hpi_setHpi_same]
    exact hreq
  rw [State.complete_eq _ _ _ _ _ _ hkept, State.stamp_setSlot, State.setSlot, State.hpi_setHpi_same,
    State.setHpi_setHpi]

section
variable {s : State} {p : Port} {r : Request}

/-! ### MAP (R101, R102) -/

theorem State.presents.exec_mapSlot (h : s.presents .mapSlot p r) : exec (.mapSlot p) s = .next (settleMap r p s) :=
  congrArg Host.Outcome.next (h.present settleMap)

/-- The first check of R101 that fails. The check of the state is not among them: a buffer `p` holds is in a state that MAP
accepts. -/
theorem State.firstFail_mapChecks (s : State) (p : Port) (r : Request) :
    firstFail (s.mapChecks p r) =
      if r.handle.getLsbD 7 = true ∨ 8 ≤ r.slot.toNat then some .badRequest
      else if s.stale r.handle = true then some .staleHandle
      else if (s.desc (handleIx r.handle)).holder ≠ some p then some .notHolder
      else if s.slotLive p r.slotIx = true then some .slotInUse else none := by
  simp only [State.mapChecks, State.handleChecks, List.cons_append, List.nil_append, firstFail, bne_iff_ne,
    Bool.or_eq_true, handleBad_eq, Request.slotBad, decide_eq_true_eq, Bool.not_eq_true', List.contains_eq_mem,
    decide_eq_false_iff_not]
  by_cases hholder : (s.desc (handleIx r.handle)).holder = some p
  · simp only [Desc.state_mem_of_holder hholder, not_true_eq_false, if_false]
  · simp only [ne_eq, hholder, not_false_eq_true, if_true]

theorem settleMap_refused {code : ResultCode} (h : firstFail (s.mapChecks p r) = some code) :
    settleMap r p s = s.complete p r.tag code { v0 := BitVec.ofNat 16 r.slot.toNat, v1 := r.handle } := by
  simp only [settleMap, h, word]

/-- A MAP that passes its checks: the slot and the requester's completion. -/
theorem settleMap_accepted (hreq : s.hasRequest p r.tag .mapSlot) (h : firstFail (s.mapChecks p r) = none) :
    settleMap r p s = s.setHpi p
      ({ s.hpi p with apertures := (s.hpi p).apertures.set r.slotIx (some r.handle) }.afterCompletion r.tag .mapSlot .done
        { v0 := BitVec.ofNat 16 r.slot.toNat, v1 := r.handle, blockCount := (s.desc (handleIx r.handle)).blockCount,
          v2 := field 0 1 (flag (s.hpi p).apertures[r.slotIx].isSome) } s.stamp) := by
  simp only [settleMap, h]
  exact State.complete_setSlot hreq _ _ _ _

/-! ### UNMAP (R103) -/

theorem State.presents.exec_unmapSlot (h : s.presents .unmapSlot p r) :
    exec (.unmapSlot p) s = .next (settleUnmap r p s) := congrArg Host.Outcome.next (h.present settleUnmap)

theorem settleUnmap_badField (h : 8 ≤ r.slot.toNat) : settleUnmap r p s = s.complete p r.tag .badRequest {} := by
  simp only [settleUnmap, Request.slotBad_of_ge h, if_true]

theorem settleUnmap_empty {k : Fin 8} (hk : k.val = r.slot.toNat) (h : (s.hpi p).apertures[k] = none) :
    settleUnmap r p s = s.complete p r.tag .notMapped {} := by
  simp only [settleUnmap, Request.slotBad_of_eq hk, Request.slotIx_of_eq hk, h, Bool.false_eq_true, if_false]

theorem settleUnmap_mapped {k : Fin 8} {m : Word} (hreq : s.hasRequest p r.tag .unmapSlot) (hk : k.val = r.slot.toNat)
    (h : (s.hpi p).apertures[k] = some m) :
    settleUnmap r p s = s.setHpi p
      ({ s.hpi p with apertures := (s.hpi p).apertures.set k none }.afterCompletion r.tag .unmapSlot .done
        { v0 := BitVec.ofNat 16 k.val, v1 := m, v2 := if s.live p m then 1#16 else 0#16 } s.stamp) := by
  have hflag : field 0 1 (flag (s.live p m)) = if s.live p m then 1#16 else 0#16 := by cases s.live p m <;> rfl
  simp only [settleUnmap, Request.slotBad_of_eq hk, Request.slotIx_of_eq hk, h, Bool.false_eq_true, if_false, hflag, ← hk]
  exact State.complete_setSlot hreq _ _ _ _

end

/-- Settles O28, by the checks of R101 in order and the mapping the slot held before, then by the cases of R103. -/
theorem mapAndUnmap : Obligations.MapAndUnmap := by
  unfold Obligations.MapAndUnmap
  refine ⟨fun s p r h => ?_, fun s p r h => ⟨fun hbad => ?_, fun k hk => ?_⟩⟩
  · intro d v refused
    have hchecks := s.firstFail_mapChecks p r
    have hrefused (code : ResultCode) (hf : firstFail (s.mapChecks p r) = some code) : refused code :=
      h.completes (h.exec_mapSlot.trans (congrArg _ (settleMap_refused hf)))
    split_ifs with hbad hstale hholder
    · exact hrefused _ (by rw [hchecks, if_pos hbad])
    · exact hrefused _ (by rw [hchecks, if_neg hbad, if_pos hstale])
    · exact hrefused _ (by rw [hchecks, if_neg hbad, if_neg hstale, if_pos hholder])
    · rw [if_neg hbad, if_neg hstale, if_neg hholder] at hchecks
      intro k hk
      obtain rfl := Request.slotIx_of_eq hk
      have haccepted (hfree : ¬s.slotLive p r.slotIx = true) :=
        h.exec_mapSlot.trans (congrArg _ (settleMap_accepted h.hasRequest (hchecks.trans (if_neg hfree))))
      split
      next m hm =>
        have hlive : s.slotLive p r.slotIx = s.live p m := by rw [State.slotLive, hm, Option.any_some]
        rw [hlive] at hchecks haccepted
        split_ifs with hin
        · exact hrefused _ (hchecks.trans (if_pos hin))
        · rw [haccepted hin, hm]
          rfl
      next hm =>
        rw [haccepted (by simp [State.slotLive, hm]), hm]
        rfl
  · exact h.completes (h.exec_unmapSlot.trans (congrArg _ (settleUnmap_badField hbad)))
  · split
    next hm => exact h.completes (h.exec_unmapSlot.trans (congrArg _ (settleUnmap_empty hk hm)))
    next m hm => exact h.exec_unmapSlot.trans (congrArg _ (settleUnmap_mapped h.hasRequest hk hm))

end Sys2Proof.Machine

/-!
PROOFS. Refused aperture accesses (R104, R106, R109 to R111). Reads and writes are treated as one command with a direction:
its check is said once, as a chain of conditions in their order, and what a refusal does is one update of the port's HPI.
-/

namespace Sys2Proof.Machine

/-- The access check of a slot that holds a mapping: its three steps in order (R104). -/
theorem State.accessCheck_mapped {s : State} {p : Port} {addr : BitVec 14} {dir : Direction} {h : Word}
    (hslot : (s.hpi p).apertures[apertureSlot addr] = some h) :
    s.accessCheck p addr dir =
      if s.live p h = false then .error .stale
      else if (s.desc (handleIx h)).extent ≤ apertureOffset addr then .error .outOfExtent
      else if (s.desc (handleIx h)).grants dir (apertureOffset addr) = false then .error .writeDenied
      else .ok (handleIx h) := by
  simp only [State.accessCheck, hslot, Bool.not_eq_true']

theorem State.accessCheck_unmapped {s : State} {p : Port} {addr : BitVec 14} {dir : Direction}
    (hslot : (s.hpi p).apertures[apertureSlot addr] = none) : s.accessCheck p addr dir = .error .unmapped := by
  simp only [State.accessCheck, hslot]

/-- The HPI after a fault is offered to its capture record (R109, R110). -/
def Hpi.afterCapture (h : Hpi) (k : Fin 8) (o : Nat) (dir : Direction) (f : FaultKind) (stamp : Word) : Hpi :=
  match h.capture with
  | some r => { h with capture := some { r with more := true } }
  | none =>
    { h with capture := some ⟨k, o, dir, f, false⟩ }.afterNotice .accessFault
      { v0 := word k.val, v1 := word o, v2 := word (faultCode f), v3 := word (directionCode dir) } stamp

theorem State.captureFault_eq (s : State) (p : Port) (k : Fin 8) (o : Nat) (dir : Direction) (f : FaultKind) :
    s.captureFault p k o dir f = s.setHpi p ((s.hpi p).afterCapture k o dir f s.stamp) := by
  cases hc : (s.hpi p).capture with
  | some r => simp only [State.captureFault, Hpi.afterCapture, hc]
  | none =>
    simp only [State.captureFault, Hpi.afterCapture, hc, State.notice_eq, State.hpi_setHpi_same, State.setHpi_setHpi,
      State.stamp_setHpi]

/-- The HPI after a refused access: a STALE fault empties the slot, and every fault is captured (R106). -/
def Hpi.afterRefusal (h : Hpi) (addr : BitVec 14) (dir : Direction) (f : FaultKind) (stamp : Word) : Hpi :=
  (if f = .stale then { h with apertures := h.apertures.set (apertureSlot addr) none } else h).afterCapture
    (apertureSlot addr) (apertureOffset addr) dir f stamp

theorem State.refuseAccess_eq (s : State) (p : Port) (addr : BitVec 14) (dir : Direction) (f : FaultKind) :
    s.refuseAccess p addr dir f = s.setHpi p ((s.hpi p).afterRefusal addr dir f s.stamp) := by
  simp only [State.refuseAccess, Hpi.afterRefusal, State.captureFault_eq]
  split_ifs
  · rw [State.stamp_setSlot, State.setSlot, State.hpi_setHpi_same, State.setHpi_setHpi]
  · rfl

/-- An update of one port's HPI to what a refusal makes of it, a read's data lines included, is all that R106 allows. -/
theorem State.faulted_setHpi (s : State) (p : Port) (addr : BitVec 14) (dir : Direction) (f : FaultKind) :
    s.faulted (s.setHpi p (if dir = .read then { (s.hpi p).afterRefusal addr dir f s.stamp with dataOut := 0#16 }
      else (s.hpi p).afterRefusal addr dir f s.stamp)) p addr dir f := by
  refine ⟨?_, s.othersKept_setHpi _ _, rfl⟩
  rw [State.hpi_setHpi_same]
  cases hc : (s.hpi p).capture <;> by_cases hf : f = .stale <;> simp only [Hpi.afterRefusal, Hpi.afterCapture, hc, hf,
    if_true, if_false]

/-! ### The command of an access -/

/-- The aperture access of port `p` in direction `dir`; a read has no use for the word and strobes `w`. -/
def apertureAccess (p : Port) (addr : BitVec 14) (w : BusWrite) : Direction → Instr
  | .read => .apertureRead p addr
  | .write => .apertureWrite p addr w

section
variable {s : State} {p : Port} {addr : BitVec 14} {dir : Direction} {w : BusWrite}

/-- An access the check refuses (R106). -/
theorem exec_apertureAccess_refused {f : FaultKind} (htaken : s.busTaken p = true) (hon : s.online p = true)
    (hcheck : s.accessCheck p addr dir = .error f) :
    ∃ t, exec (apertureAccess p addr w dir) s = .next t ∧ s.faulted t p addr dir f := by
  refine ⟨_, ?_, s.faulted_setHpi p addr dir f⟩
  cases dir with
  | read =>
    change Host.Outcome.next (s.readAperture p addr) = _
    simp only [State.readAperture, htaken, hon, Bool.and_self, hcheck, if_true, State.refuseAccess_eq, State.driveData,
      State.hpi_setHpi_same, State.setHpi_setHpi]
  | write =>
    change Host.Outcome.next (s.writeAperture p addr w) = _
    simp only [State.writeAperture, htaken, hon, Bool.and_self, hcheck, if_true, State.refuseAccess_eq, reduceCtorEq,
      if_false]

/-- An access that is not checked (R111). -/
theorem exec_apertureAccess_unchecked (h : s.busTaken p = false ∨ s.online p = false) :
    exec (apertureAccess p addr w dir) s =
      .next (if dir = .read then s.setHpi p { s.hpi p with dataOut := 0#16 } else s) := by
  have hguard : (s.busTaken p && s.online p) = false := Bool.and_eq_false_iff.2 h
  cases dir with
  | read =>
    change Host.Outcome.next (s.readAperture p addr) = _
    simp only [State.readAperture, hguard, Bool.false_eq_true, if_false, if_true, State.driveData]
  | write =>
    change Host.Outcome.next (s.writeAperture p addr w) = _
    simp only [State.writeAperture, hguard, Bool.false_eq_true, if_false, reduceCtorEq]

end

/-- Settles O25, by the steps of the access check in order. -/
theorem apertureFaults : Obligations.ApertureFaults := by
  unfold Obligations.ApertureFaults
  intro s p addr dir w c hc
  obtain rfl : c = apertureAccess p addr w dir := by cases dir <;> exact hc
  refine ⟨fun htaken hon => ?_, exec_apertureAccess_unchecked⟩
  have hrefused {f : FaultKind} := exec_apertureAccess_refused (addr := addr) (dir := dir) (w := w) (f := f) htaken hon
  refine ⟨fun hslot => ?_, fun h hslot hdead => ?_, fun h hslot hlive hout => ?_, fun h hslot hlive hin hdenied => ?_⟩
  · exact hrefused (State.accessCheck_unmapped hslot)
  · exact hrefused (by rw [State.accessCheck_mapped hslot, if_pos hdead])
  · exact hrefused (by rw [State.accessCheck_mapped hslot, if_neg (by simp [hlive]), if_pos hout])
  · exact hrefused (by
      rw [State.accessCheck_mapped hslot, if_neg (by simp [hlive]), if_neg (Nat.not_le.2 hin), if_pos hdenied])

end Sys2Proof.Machine

/-!
PROOFS. RETEST as it is presented (R123): its settlement is three equations, by the RETEST record and the retired list.
-/

namespace Sys2Proof.Machine

theorem State.presents.exec_retest {s : State} {p : Port} {r : Request} (h : s.presents .retest p r) :
    exec (.retest p) s = .next (settleRetest r p s) := congrArg Host.Outcome.next (h.present settleRetest)

section
variable {s : State} {p : Port} {r : Request}

theorem settleRetest_running (h : s.retest ≠ none) : settleRetest r p s = s.complete p r.tag .busy {} := by
  obtain ⟨x, hx⟩ := Option.ne_none_iff_exists'.1 h
  simp only [settleRetest, hx]

theorem settleRetest_nothing_retired (h : s.retest = none) (hr : s.retired = []) :
    settleRetest r p s = s.complete p r.tag .done {} := by
  simp only [settleRetest, h, hr]

/-- The whole retired list is to be tested, its head first, and the request stays outstanding. -/
theorem settleRetest_starts {b : BlockIx} {rest : List BlockIx} (h : s.retest = none) (hr : s.retired = b :: rest) :
    settleRetest r p s = { s.setHpi p ((s.hpi p).leftAs r.tag .running) with
      retest := some ⟨some (p, r.tag), s.retired.length, s.retired.length, 0, b, []⟩ } := by
  simp only [settleRetest, h, hr, State.setHpi_retired, List.length_cons]
  rfl

end

/-- Settles O44, by the RETEST record and then the retired list. -/
theorem retestStarts : Obligations.RetestStarts := by
  unfold Obligations.RetestStarts
  refine fun s p r h => ⟨fun hrun => ?_, fun hidle hnil => ?_, fun b rest hidle hcons => ?_⟩
  · exact h.completes (h.exec_retest.trans (congrArg _ (settleRetest_running hrun)))
  · exact h.completes (h.exec_retest.trans (congrArg _ (settleRetest_nothing_retired hidle hnil)))
  · exact h.exec_retest.trans (congrArg _ (settleRetest_starts hidle hcons))

end Sys2Proof.Machine

/-!
PROOFS. Granted aperture accesses that find an uncorrectable error (R117, R118). What such an error marks is said once, as an
update of one block record, one descriptor and one port's HPI; a read adds the data lines to it and a one-byte write the
stored word.
-/

namespace Sys2Proof.Machine

/-! ### An access that is granted -/

/-- The access check lets through an access that reaches a descriptor (R104). -/
theorem State.reaches.accessCheck {s : State} {p : Port} {addr : BitVec 14} {dir : Direction} {h : Word} {i : DescIx}
    (hr : s.reaches p addr dir h i) : s.accessCheck p addr dir = .ok i := by
  obtain ⟨-, -, hslot, rfl, hlive, hin, hgranted⟩ := hr
  rw [State.accessCheck_mapped hslot, if_neg (by simp [hlive]), if_neg (Nat.not_le.2 hin), if_neg (by simp [hgranted])]

/-- A granted aperture read is served (R107). -/
theorem State.reaches.exec_apertureRead {s : State} {p : Port} {addr : BitVec 14} {h : Word} {i : DescIx}
    (hr : s.reaches p addr .read h i) :
    exec (.apertureRead p addr) s = .next (s.serveRead p i (apertureOffset addr)) := by
  change Host.Outcome.next (s.readAperture p addr) = _
  have ⟨htaken, hon, _⟩ := hr
  simp only [State.readAperture, htaken, hon, Bool.and_self, hr.accessCheck, if_true]

/-- A granted aperture write is served (R108). -/
theorem State.reaches.exec_apertureWrite {s : State} {p : Port} {addr : BitVec 14} {h : Word} {i : DescIx}
    (hr : s.reaches p addr .write h i) (x : BusWrite) :
    exec (.apertureWrite p addr x) s = .next (s.serveWrite p i (apertureOffset addr) x) := by
  change Host.Outcome.next (s.writeAperture p addr x) = _
  have ⟨htaken, hon, _⟩ := hr
  simp only [State.writeAperture, htaken, hon, Bool.and_self, hr.accessCheck, if_true]

/-! ### What an uncorrectable error marks -/

theorem State.setDesc_self (s : State) (i : DescIx) : s.setDesc i (s.desc i) = s := by
  simp [State.setDesc, State.desc]

/-- The damaged flag is set in every state of the descriptor; a FREE one has none. -/
theorem State.setDamaged_eq (s : State) (i : DescIx) : s.setDamaged i = s.setDesc i (s.desc i).withDamage := by
  cases hl : (s.desc i).life with
  | free =>
    have hkept : (s.desc i).withDamage = s.desc i := by rw [Desc.withDamage, hl]; exact congrArg (Desc.mk _) hl.symm
    simp only [State.setDamaged, hl, hkept, State.setDesc_self]
  | _ => simp only [State.setDamaged, hl, State.setLife, Desc.withDamage]

/-- The two marks of an uncorrectable error at offset `o` of descriptor `i`: its block is suspect and the buffer damaged. -/
def State.withMarks (s : State) (i : DescIx) (o : Nat) : State :=
  (s.setBlock ((s.desc i).blockAt o) { s.block ((s.desc i).blockAt o) with suspect := true }).setDesc i
    (s.desc i).withDamage

/-- The accessing port's HPI after them: DATA_DAMAGED is raised if the flag was clear. -/
def State.hpiMarked (s : State) (p : Port) (i : DescIx) (o : Nat) (dir : Direction) : Hpi :=
  if (s.desc i).damaged then s.hpi p
  else (s.hpi p).afterNotice .dataDamaged { v0 := s.handle i, v1 := word (o / 256), v2 := word (directionCode dir) } s.stamp

theorem State.markDamage_eq (s : State) (p : Port) (i : DescIx) (o : Nat) (dir : Direction) :
    s.markDamage p i (s.handle i) o dir = (s.withMarks i o).setHpi p (s.hpiMarked p i o dir) := by
  have hmarks : (s.setBlock ((s.desc i).blockAt o) { s.block ((s.desc i).blockAt o) with suspect := true }).setDamaged i =
      s.withMarks i o := State.setDamaged_eq _ i
  simp only [State.markDamage, State.hpiMarked, hmarks, State.notice_eq]
  split_ifs
  · exact ((s.withMarks i o).setHpi_self p).symm
  · rfl

/-- A state with the descriptors and block records of the marks is marked as R117 and R118 say. -/
theorem State.marked_of_withMarks {s t : State} {p : Port} {i : DescIx} {o : Nat} {dir : Direction}
    (hdescs : t.descs = (s.withMarks i o).descs) (hblocks : t.blocks = (s.withMarks i o).blocks) :
    s.marked t i o dir (s.hpi p) (s.hpiMarked p i o dir) := by
  have hdesc (j : DescIx) : t.desc j = (s.withMarks i o).desc j := State.desc_of_descs hdescs j
  have hblock (b : BlockIx) : t.block b = (s.withMarks i o).block b := by rw [State.block, hblocks, State.block]
  refine ⟨?_, fun b hb => ?_, ?_, fun j hj => ?_, rfl⟩
  · rw [hblock, State.withMarks, State.block_setDesc, State.block_setBlock_same]
  · rw [hblock, State.withMarks, State.block_setDesc, State.block_setBlock, if_neg hb.symm]
  · rw [hdesc, State.withMarks, State.desc_setDesc_same]
  · rw [hdesc, State.withMarks, State.desc_setDesc_ne _ _ hj.symm, State.desc_setBlock]

/-! ### The access that finds the error -/

section
variable {s : State} {i : DescIx} {o : Nat}

/-- An uncorrectable error leaves the data bits as read. -/
theorem State.readData_uncorrectable {w : MemIx} (h : s.finding w = .uncorrectable) :
    s.readData w = dataRead (s.written w) (s.wordErrors w) := by
  simp only [State.readData, h]

/-- A write of a single byte, whatever its word reads as (R108, R116, R118). -/
theorem State.serveWrite_byte (s : State) (p : Port) (i : DescIx) (o : Nat) {x : BusWrite} (hx : x.low ≠ x.high) :
    s.serveWrite p i o x =
      (if s.finding ((s.desc i).wordAt o) = .uncorrectable then s.markDamage p i (s.handle i) o .write else s).storeWord
        ((s.desc i).wordAt o) (mergeBytes x (s.readData ((s.desc i).wordAt o))) := by
  cases hl : x.low with
  | false =>
    have hh : x.high = true := by simpa [hl] using hx
    simp only [State.serveWrite, hl, hh]
  | true =>
    have hh : x.high = false := by simpa [hl] using hx
    simp only [State.serveWrite, hl, hh]

/-- A read that finds an uncorrectable error (R117). -/
theorem State.serveRead_uncorrectable (h : s.finding ((s.desc i).wordAt o) = .uncorrectable) (p : Port) :
    s.serveRead p i o = (s.withMarks i o).setHpi p { s.hpiMarked p i o .read with
      dataOut := dataRead (s.written ((s.desc i).wordAt o)) (s.wordErrors ((s.desc i).wordAt o)) } := by
  simp only [State.serveRead, h, State.readData_uncorrectable h, State.markDamage_eq, State.driveData,
    State.hpi_setHpi_same, State.setHpi_setHpi]

/-- A one-byte write that finds an uncorrectable error (R118). -/
theorem State.serveWrite_uncorrectable (h : s.finding ((s.desc i).wordAt o) = .uncorrectable) (p : Port) {x : BusWrite}
    (hx : x.low ≠ x.high) :
    s.serveWrite p i o x = ((s.withMarks i o).setHpi p (s.hpiMarked p i o .write)).storeWord ((s.desc i).wordAt o)
      (mergeBytes x (dataRead (s.written ((s.desc i).wordAt o)) (s.wordErrors ((s.desc i).wordAt o)))) := by
  rw [State.serveWrite_byte _ _ _ _ hx, if_pos h, State.markDamage_eq, State.readData_uncorrectable h]

end

/-- A word stored with a fresh code, in sound cells, reads without error (R114). -/
theorem State.finding_storeWord {s : State} {w : MemIx} (d : Word) (hu : cellsWf 0#22 memWords s.upsets = true)
    (hsound : s.stuck w = Stuck.none) : (s.storeWord w d).finding w = .noError := by
  have herrors : (s.storeWord w d).wordErrors w = 0#22 := by
    rw [State.wordErrors, State.stuck_storeWord, hsound, upset_storeWord _ _ _ _ hu, if_pos rfl]
    rfl
  have hcount : bitCount 0#22 = 0 := by decide
  simp only [State.finding, herrors, findingOf, hcount]

/-- What storing one word with a fresh code makes of buffer memory (R108, R114). -/
theorem State.storeWord_spec {s : State} (hs : s.memoryWf) (w : MemIx) (d : Word) :
    (s.storeWord w d).written w = d ∧ (s.storeWord w d).upset w = 0#22 ∧ s.otherWords (s.storeWord w d) w ∧
      (s.stuck w = Stuck.none → (s.storeWord w d).finding w = .noError) := by
  obtain ⟨hmem, hupsets, -⟩ := hs
  refine ⟨?_, ?_, fun v hv => ⟨?_, ?_⟩, State.finding_storeWord d hupsets⟩
  · rw [written_storeWord _ _ _ _ hmem, if_pos rfl]
  · rw [upset_storeWord _ _ _ _ hupsets, if_pos rfl]
  · rw [written_storeWord _ _ _ _ hmem, if_neg hv]
  · rw [upset_storeWord _ _ _ _ hupsets, if_neg hv]

/-- Settles O27. The marks leave buffer memory alone, so the word is stored as into the state before them. -/
theorem uncorrectableErrorsMark : Obligations.UncorrectableErrorsMark := by
  unfold Obligations.UncorrectableErrorsMark
  intro s p addr dir h i hmem hreach o w asRead hfinding
  refine ⟨?_, fun x => ?_⟩
  · rintro rfl
    exact ⟨_, s.hpiMarked p i o .read,
      hreach.exec_apertureRead.trans (congrArg _ (State.serveRead_uncorrectable hfinding p)),
      State.marked_of_withMarks rfl rfl, hfinding, rfl⟩
  · rintro rfl hbyte
    obtain ⟨hwritten, hupset, hothers, hsound⟩ := State.storeWord_spec hmem w (mergeBytes x asRead)
    exact ⟨_, s.hpiMarked p i o .write,
      (hreach.exec_apertureWrite x).trans (congrArg _ (State.serveWrite_uncorrectable hfinding p hbyte)),
      State.marked_of_withMarks rfl rfl, hwritten, hupset, hothers, hsound, rfl⟩

end Sys2Proof.Machine

/-!
PROOFS. The submit word (R132). The staged record's kind and tag are its two fields, so the model's answer, encoded, is the
row of the table; the read drives that word, and enters the staged record under ACCEPTED alone.
-/

namespace Sys2Proof.Machine

/-! ### The fields of the staged record -/

theorem stagedKind_toNat (h : Hpi) : (stagedKind h.staging).toNat = h.kindField := by
  simp [stagedKind, Hpi.kindField]

theorem stagedTag_toNat (h : Hpi) : (stagedTag h.staging).toNat = h.tagField := by
  have hlt := h.staging[0].isLt
  simp only [stagedTag, Hpi.tagField, BitVec.extractLsb'_toNat, Nat.shiftRight_eq_div_pow]
  omega

/-- The kind field names the request kind of its code (R177). -/
theorem kindOf_eq_some_iff (x : BitVec 8) (k : ReqKind) : kindOf x = some k ↔ kindCode k = x.toNat := by
  cases k <;> revert x <;> decide

/-- The codes 0 and 24 to 255 name no kind (R177). -/
theorem kindOf_eq_none_iff (x : BitVec 8) : kindOf x = none ↔ x.toNat = 0 ∨ 24 ≤ x.toNat := by
  revert x; decide

/-! ### The answer -/

/-- The second row of R132: RECLAIMING is the one port state left. -/
theorem PortState.reclaiming_iff (x : PortState) : (x ≠ .offline ∧ x ≠ .online) ↔ ∃ i, x = .reclaiming i := by
  cases x <;> simp

theorem Hpi.stagedKind_ne_attach_iff (h : Hpi) : kindOf (stagedKind h.staging) ≠ some .attach ↔ h.kindField ≠ 1 := by
  rw [Ne, kindOf_eq_some_iff, stagedKind_toNat, eq_comm]
  rfl

theorem Hpi.stagedKind_bad_iff (h : Hpi) :
    kindOf (stagedKind h.staging) = none ↔ h.kindField = 0 ∨ 24 ≤ h.kindField := by
  rw [kindOf_eq_none_iff, stagedKind_toNat]

theorem Hpi.stagedTag_inUse_iff (h : Hpi) :
    (h.table.any fun e => e.req.tag == stagedTag h.staging) = true ↔ ∃ e ∈ h.table, e.req.tag.toNat = h.tagField := by
  simp only [List.any_eq_true, beq_iff_eq, ← stagedTag_toNat, BitVec.toNat_inj]

/-- The model's answer, encoded, is the row of R132's table, condition by condition. -/
theorem State.answerCode_submitAnswer (s : State) (p : Port) : answerCode (s.submitAnswer p) = s.answerByTable p := by
  simp only [State.submitAnswer, State.answerByTable, apply_ite answerCode, PortState.reclaiming_iff,
    Hpi.stagedKind_ne_attach_iff, Hpi.stagedKind_bad_iff, Hpi.stagedTag_inUse_iff, Hpi.outstanding, Hpi.occupied,
    le_iff_eq_or_lt, eq_comm (a := 8), eq_comm (a := 32)]
  rfl

theorem answerCode_eq_accepted_iff (a : SubmitAnswer) : answerCode a = 0x0008#16 ↔ a = .accepted := by
  cases a <;> decide

/-! ### The read -/

section
variable {s : State} {p : Port}

/-- A taken read of the submit word drives the table's word, whatever it enters. -/
theorem State.dataOut_submit (h : s.busTaken p = true) : ((s.submit p).hpi p).dataOut = s.answerByTable p := by
  simp only [State.submit, h, if_true, State.driveData, State.hpi_setHpi_same, State.answerCode_submitAnswer]

/-- An answer other than ACCEPTED is driven and enters nothing. -/
theorem State.submit_refused (h : s.busTaken p = true) (hr : s.answerByTable p ≠ 0x0008#16) :
    s.submit p = s.driveData p (s.answerByTable p) := by
  have hne : s.submitAnswer p ≠ .accepted := by
    rwa [← State.answerCode_submitAnswer, Ne, answerCode_eq_accepted_iff] at hr
  simp only [State.submit, h, if_true, State.answerCode_submitAnswer]
  split
  next heq _ => exact absurd heq hne
  next => rfl

/-- A read of the submit word of a port whose bus is ignored (R172). -/
theorem State.submit_ignored (h : s.busTaken p = false) : s.submit p = s.driveData p 0#16 := by
  simp only [State.submit, h, Bool.false_eq_true, if_false]

end

/-- A write to the submit word is discarded (R132, R173). -/
theorem State.busWrite_submit (s : State) (p : Port) (w : BusWrite) : s.busWrite p 0x4008#15 w = s := by
  have hword : windowWord 0x4008#15 = .submit := by simp [windowWord]
  simp only [State.busWrite, hword]

/-- Settles O19, by whether the port's bus is taken and then by the answer. -/
theorem submissionAnswers : Obligations.SubmissionAnswers := by
  unfold Obligations.SubmissionAnswers
  refine ⟨fun s p htaken => ?_, fun s p hignored => ?_, fun s p w => ?_⟩
  · exact ⟨s.submit p, rfl, State.dataOut_submit htaken, State.submit_refused htaken⟩
  · exact congrArg Host.Outcome.next (State.submit_ignored hignored)
  · exact congrArg Host.Outcome.next (s.busWrite_submit p w)

end Sys2Proof.Machine

/-!
PROOFS. The consume word (R151, R155). A consume is two equations, by whether a record stands in the queue of a port whose
bus is taken.
-/

namespace Sys2Proof.Machine

section
variable {s : State} {p : Port}

/-- The head record is removed and a due SUMMARY written (R151, R155). -/
theorem State.consumeHead_cons {x : EventRecord} {rest : List EventRecord} (htaken : s.busTaken p = true)
    (hq : (s.hpi p).queue = x :: rest) :
    s.consumeHead p =
      if (s.hpi p).summaryEmpty then s.setHpi p { s.hpi p with queue := rest }
      else s.setHpi p { s.hpi p with
        queue := rest ++ [.summary (s.hpi p).sumKinds (s.hpi p).sumChannels s.stamp]
        sumKinds := 0#11
        sumChannels := 0#16 } := by
  simp only [State.consumeHead, htaken, hq, if_true, State.writeSummary, State.hpi_setHpi_same, State.stamp_setHpi,
    State.setHpi_setHpi]

/-- There is nothing to consume: the bus is ignored or the queue is empty (R151, R172). -/
theorem State.consumeHead_idle (h : s.busTaken p = false ∨ (s.hpi p).queue = []) : s.consumeHead p = s := by
  unfold State.consumeHead
  split
  next htaken =>
    have hq : (s.hpi p).queue = [] := h.resolve_left (by simp [htaken])
    simp only [hq]
  next => rfl

/-- A port that is not ONLINE has an empty queue (R159). -/
theorem Hpi.law.queue_offline (h : (s.hpi p).law) (hoff : s.online p = false) : (s.hpi p).queue = [] := by
  obtain ⟨-, -, hbare, -⟩ := h
  obtain ⟨-, hq, -⟩ := hbare (by simpa [State.online] using hoff)
  exact hq

end

/-! ### Plain reads -/

/-- A read of a port whose bus is ignored returns 0x0000 (R172). -/
theorem State.plainRead_ignored {s : State} {p : Port} (h : s.busTaken p = false) (addr : BitVec 15) :
    s.plainRead p addr = some 0#16 := by
  simp [State.plainRead, h]

/-- Settles O22, by the head of the queue and the notice summary. -/
theorem consumeRemovesTheHead : Obligations.ConsumeRemovesTheHead := by
  unfold Obligations.ConsumeRemovesTheHead
  intro s p w
  have hexec : exec (.consume p w) s = .next (s.consumeHead p) := rfl
  refine ⟨fun x rest htaken hq hsum => ?_, fun x rest htaken hq hsum => ?_, fun h => ?_, ?_⟩
  · rw [hexec, State.consumeHead_cons htaken hq, if_pos hsum]
  · rw [hexec, State.consumeHead_cons htaken hq, if_neg (by simp [hsum])]
  · rw [hexec, State.consumeHead_idle (h.imp_right fun h => h.elim id fun ⟨hlaw, hoff⟩ => hlaw.queue_offline hoff)]
  · have hword : windowWord 0x4018#15 = .consume := by simp [windowWord]
    by_cases htaken : s.busTaken p = true
    · simp [State.plainRead, htaken, hword]
    · exact State.plainRead_ignored (by simpa using htaken) _

end Sys2Proof.Machine

/-!
PROOFS. What of an HPI the operations of the part leave alone. Requests, notices, traffic on channels, aperture accesses and
the events inside the part reach an HPI's table, queue, summary, staging, slots, capture and data lines, and never its
controls; each operation says so once, as an equation. So only the few commands that move a control are looked at for the
law of R157 and R159 that the attention enable of a port that is not ONLINE is clear.
-/

namespace Sys2Proof.Machine

/-! ### The controls of an HPI -/

/-- The controls of an HPI: the port state (R160), the level of the reset input (R163), the attention enable (R157) and the
tick latch (R175). -/
def Hpi.controls (h : Hpi) : PortState × Bool × Bool × Word := (h.state, h.resetIn, h.attnEnable, h.tickLatch)

/-- An update of one HPI that leaves its controls alone. -/
theorem State.setHpi_controls {s : State} {p : Port} {h : Hpi} (hc : h.controls = (s.hpi p).controls) (q : Port) :
    ((s.setHpi p h).hpi q).controls = (s.hpi q).controls := by
  rw [State.hpi_setHpi]
  split_ifs with hpq
  · rw [hc, hpq]
  · rfl

theorem State.hpi_of_ports {s t : State} (h : t.ports = s.ports) (p : Port) : t.hpi p = s.hpi p := by
  simp only [State.hpi, h]

theorem State.controls_of_ports {s t : State} (h : t.ports = s.ports) (p : Port) :
    (t.hpi p).controls = (s.hpi p).controls := by rw [State.hpi_of_ports h]

theorem State.foldl_controls {α : Type} {f : State → α → State} {q : Port}
    (hf : ∀ (s : State) (x : α), ((f s x).hpi q).controls = (s.hpi q).controls) (l : List α) (s : State) :
    ((l.foldl f s).hpi q).controls = (s.hpi q).controls := by
  induction l generalizing s with
  | nil => rfl
  | cons x rest ih => exact (ih _).trans (hf s x)

/-! ### Records and waiting requests -/

section
variable (s : State) (p q : Port)

@[simp] theorem State.complete_controls (tag : Tag) (r : ResultCode) (v : Vals) :
    ((s.complete p tag r v).hpi q).controls = (s.hpi q).controls := by
  obtain ⟨t, u, h⟩ := s.complete_frame p tag r v
  rw [h]
  exact State.setHpi_controls (by rfl) q

@[simp] theorem State.notice_controls (k : NoticeKind) (v : Vals) :
    ((s.notice p k v).hpi q).controls = (s.hpi q).controls := by
  obtain ⟨u, ks, cs, h⟩ := s.notice_frame p k v
  rw [h]
  exact State.setHpi_controls (by rfl) q

@[simp] theorem State.completeAll_controls (ws : List Wait) (r : ResultCode) (v : Vals) :
    ((s.completeAll p ws r v).hpi q).controls = (s.hpi q).controls := by
  unfold State.completeAll
  exact State.foldl_controls (fun s w => s.complete_controls p q w.tag r v) ws s

@[simp] theorem State.refuseOnChannel_controls (r : Request) (code : ResultCode) :
    ((s.refuseOnChannel p r code).hpi q).controls = (s.hpi q).controls := by
  unfold State.refuseOnChannel
  split <;> simp

@[simp] theorem State.leaveOutstanding_controls (tag : Tag) (x : EntryState) :
    ((s.leaveOutstanding p tag x).hpi q).controls = (s.hpi q).controls :=
  State.setHpi_controls (by rfl) q

@[simp] theorem State.setSlot_controls (k : Fin 8) (x : Option Word) :
    ((s.setSlot p k x).hpi q).controls = (s.hpi q).controls :=
  State.setHpi_controls (by rfl) q

@[simp] theorem State.driveData_controls (w : Word) : ((s.driveData p w).hpi q).controls = (s.hpi q).controls :=
  State.setHpi_controls (by rfl) q

@[simp] theorem State.dropAllocWait_hpi (tag : Tag) : (s.dropAllocWait p tag).hpi q = s.hpi q := by
  unfold State.dropAllocWait
  dsimp only
  split <;> rfl

end

/-! ### Movement on channels -/

section
variable (s : State) (c : ChanIx) (i : DescIx) (q : Port)

@[simp] theorem State.freeDesc_hpi : (s.freeDesc i).hpi q = s.hpi q := by
  obtain ⟨d, x, f, r, n, h⟩ := s.freeDesc_frame i
  rw [h]
  rfl

@[simp] theorem State.freeAll_controls (l : List DescIx) :
    ((l.foldl State.freeDesc s).hpi q).controls = (s.hpi q).controls :=
  State.foldl_controls (fun s i => by rw [s.freeDesc_hpi i q]) l s

@[simp] theorem State.noticeReturns_controls (e : Bool) :
    ((s.noticeReturns c e).hpi q).controls = (s.hpi q).controls := by
  unfold State.noticeReturns
  (repeat' split) <;> simp

@[simp] theorem State.deliver_controls (m : ChanParams) (tag : Tag) (b : Buf) (t : Traffic) :
    ((s.deliver m tag i b t).hpi q).controls = (s.hpi q).controls := by
  simp [State.deliver]

@[simp] theorem State.arrive_controls (b : Buf) (t : Traffic) (r : Came) :
    ((s.arrive c i b t r).hpi q).controls = (s.hpi q).controls := by
  unfold State.arrive
  (repeat' split) <;> simp

@[simp] theorem State.comeBack_controls (b : Buf) (t : Traffic) (r : Came) :
    ((s.comeBack i b t r).hpi q).controls = (s.hpi q).controls := by
  simp [State.comeBack]

@[simp] theorem State.unbind_controls : ((s.unbind c).hpi q).controls = (s.hpi q).controls := by
  unfold State.unbind
  split <;> simp

@[simp] theorem State.unbindIfDrained_controls : ((s.unbindIfDrained c).hpi q).controls = (s.hpi q).controls := by
  unfold State.unbindIfDrained
  split <;> simp

@[simp] theorem State.bounceAll_controls (l : List DescIx) :
    ((l.foldl (State.bounceOne c) s).hpi q).controls = (s.hpi q).controls := by
  refine State.foldl_controls (fun s i => ?_) l s
  unfold State.bounceOne
  split <;> simp

@[simp] theorem State.producerClose_controls : ((s.producerClose c).hpi q).controls = (s.hpi q).controls := by
  unfold State.producerClose
  split <;> simp

@[simp] theorem State.consumerClose_controls : ((s.consumerClose c).hpi q).controls = (s.hpi q).controls := by
  unfold State.consumerClose
  dsimp only
  (repeat' split) <;> simp

@[simp] theorem State.closeBy_controls (p : Port) : ((s.closeBy p c).hpi q).controls = (s.hpi q).controls := by
  unfold State.closeBy
  (repeat' split) <;> simp

@[simp] theorem State.revoke_controls (byExpiry : Bool) :
    ((s.revoke i byExpiry).hpi q).controls = (s.hpi q).controls := by
  unfold State.revoke
  dsimp only
  (repeat' split) <;> simp

/-! ### Reclaim, beyond the port's own HPI -/

@[simp] theorem State.freeReturns_controls : ((s.freeReturns c).hpi q).controls = (s.hpi q).controls := by
  unfold State.freeReturns
  split <;> simp

theorem State.reclaimChannel_controls (p : Port) :
    ((State.reclaimChannel p s c).hpi q).controls = (s.hpi q).controls := by
  unfold State.reclaimChannel
  dsimp only
  (repeat' split) <;> simp

@[simp] theorem State.walkAt_controls (p : Port) : ((s.walkAt p i).hpi q).controls = (s.hpi q).controls := by
  unfold State.walkAt
  (repeat' split) <;> simp

end

/-! ### The pool -/

section
variable (s : State) (p q : Port)

@[simp] theorem State.satisfy_controls (tag : Tag) (n : Nat) (i : DescIx) :
    ((s.satisfy p tag n i).hpi q).controls = (s.hpi q).controls := by
  obtain ⟨x, h⟩ := s.allocTo_frame p n i
  rw [State.satisfy, State.complete_controls, h]
  rfl

theorem State.serveHeads_controls (n : Nat) : ((State.serveHeads n s).hpi q).controls = (s.hpi q).controls := by
  induction n generalizing s with
  | zero => rfl
  | succ n ih =>
    unfold State.serveHeads
    split
    next => rfl
    next e rest _ =>
      split
      next => rfl
      next i _ => exact (ih _).trans (State.satisfy_controls { s with allocWaits := rest } e.port q e.tag e.count i)

theorem State.reexamine_controls : (s.reexamine.hpi q).controls = (s.hpi q).controls := by
  unfold State.reexamine
  split
  next => rfl
  next n _ => exact State.serveHeads_controls { s with reexamsDue := n } q _

/-! ### Events inside the part -/

theorem State.tickOnce_hpi : s.tickOnce.hpi q = s.hpi q := by
  unfold State.tickOnce
  split <;> rfl

theorem State.expireAlloc_controls (tag : Tag) : ((s.expireAlloc p tag).hpi q).controls = (s.hpi q).controls := by
  unfold State.expireAlloc
  split <;> simp

theorem State.expireTake_controls (c : ChanIx) (tag : Tag) :
    ((s.expireTake c tag).hpi q).controls = (s.hpi q).controls := by
  unfold State.expireTake
  (repeat' split) <;> simp

theorem State.expireCollect_controls (c : ChanIx) (tag : Tag) :
    ((s.expireCollect c tag).hpi q).controls = (s.hpi q).controls := by
  unfold State.expireCollect
  (repeat' split) <;> simp

theorem State.expireOffer_controls (c : ChanIx) : ((s.expireOffer c).hpi q).controls = (s.hpi q).controls := by
  unfold State.expireOffer
  split <;> simp

theorem State.expireHold_controls (i : DescIx) : ((s.expireHold i).hpi q).controls = (s.hpi q).controls := by
  unfold State.expireHold
  split <;> simp

theorem State.takeResult_closeTest_hpi (b : BlockIx) (ds : List Disturbance) (pass : Bool) :
    ((s.closeTest b ds).takeResult b pass).hpi q = s.hpi q := by
  rw [closeTest_frame]
  unfold State.takeResult
  split <;> rfl

theorem State.endRetest_controls (t : Retest) (passed : Nat) :
    ((s.endRetest t passed).hpi q).controls = (s.hpi q).controls := by
  unfold State.endRetest
  dsimp only
  split
  next => rfl
  next => exact State.complete_controls { s with retest := none } ..

theorem State.endTest_controls : (s.endTest.hpi q).controls = (s.hpi q).controls := by
  unfold State.endTest
  split
  next => rfl
  next t _ =>
    dsimp only
    split
    next => exact congrArg Hpi.controls (s.takeResult_closeTest_hpi q ..)
    next => rw [State.endRetest_controls, State.takeResult_closeTest_hpi]

theorem State.storedBitUpset_hpi (w : MemIx) (flips cells level : StoredBits) :
    ((s.noteUpset w flips cells).upsetWord w flips cells level).hpi q = s.hpi q := by
  rw [noteUpset_frame]
  rfl

/-! ### The port bus -/

theorem State.captureFault_controls (k : Fin 8) (o : Nat) (dir : Direction) (f : FaultKind) :
    ((s.captureFault p k o dir f).hpi q).controls = (s.hpi q).controls := by
  unfold State.captureFault
  split
  · exact State.setHpi_controls (by rfl) q
  · rw [State.notice_controls]
    exact State.setHpi_controls (by rfl) q

@[simp] theorem State.refuseAccess_controls (addr : BitVec 14) (dir : Direction) (f : FaultKind) :
    ((s.refuseAccess p addr dir f).hpi q).controls = (s.hpi q).controls := by
  simp only [State.refuseAccess, State.captureFault_controls]
  split <;> simp

@[simp] theorem State.setDamaged_hpi (i : DescIx) : (s.setDamaged i).hpi q = s.hpi q := by
  unfold State.setDamaged
  split <;> simp

@[simp] theorem State.markDamage_controls (i : DescIx) (h : Word) (o : Nat) (dir : Direction) :
    ((s.markDamage p i h o dir).hpi q).controls = (s.hpi q).controls := by
  unfold State.markDamage
  dsimp only
  split <;> simp

@[simp] theorem State.serveRead_controls (i : DescIx) (o : Nat) :
    ((s.serveRead p i o).hpi q).controls = (s.hpi q).controls := by
  simp only [State.serveRead, State.driveData_controls]
  split <;> simp

@[simp] theorem State.serveWrite_controls (i : DescIx) (o : Nat) (x : BusWrite) :
    ((s.serveWrite p i o x).hpi q).controls = (s.hpi q).controls := by
  unfold State.serveWrite
  dsimp only
  (repeat' split) <;> simp

theorem State.readAperture_controls (addr : BitVec 14) :
    ((s.readAperture p addr).hpi q).controls = (s.hpi q).controls := by
  unfold State.readAperture
  (repeat' split) <;> simp

theorem State.writeAperture_controls (addr : BitVec 14) (x : BusWrite) :
    ((s.writeAperture p addr x).hpi q).controls = (s.hpi q).controls := by
  unfold State.writeAperture
  (repeat' split) <;> simp

theorem State.writeStaging_controls (k : Fin 8) (w : BusWrite) :
    ((s.writeStaging p k w).hpi q).controls = (s.hpi q).controls := by
  unfold State.writeStaging
  split
  · exact State.setHpi_controls (by rfl) q
  · rfl

theorem State.consumeHead_controls : ((s.consumeHead p).hpi q).controls = (s.hpi q).controls := by
  by_cases htaken : s.busTaken p = true
  · cases hq : (s.hpi p).queue with
    | nil => rw [State.consumeHead_idle (.inr hq)]
    | cons x rest =>
      rw [State.consumeHead_cons htaken hq]
      split <;> exact State.setHpi_controls (by rfl) q
  · rw [State.consumeHead_idle (.inl (by simpa using htaken))]

theorem State.clearFault_controls : ((s.clearFault p).hpi q).controls = (s.hpi q).controls := by
  unfold State.clearFault
  split
  · exact State.setHpi_controls (by rfl) q
  · rfl

end

/-! ### Requests -/

section
variable (r : Request) (p : Port) (s : State) (q : Port)

theorem settleAttach_controls : ((settleAttach r p s).hpi q).controls = (s.hpi q).controls :=
  s.complete_controls p q ..

theorem settleCancel_controls : ((settleCancel r p s).hpi q).controls = (s.hpi q).controls := by
  unfold settleCancel
  (repeat' split) <;> simp [State.cancelDone]

@[simp] theorem State.joinAllocWaits_controls : ((s.joinAllocWaits p r).hpi q).controls = (s.hpi q).controls :=
  State.leaveOutstanding_controls { s with allocWaits := _ } p q ..

theorem settleAllocate_controls : ((settleAllocate r p s).hpi q).controls = (s.hpi q).controls := by
  unfold settleAllocate
  (repeat' split) <;> simp

theorem settleFree_controls : ((settleFree r p s).hpi q).controls = (s.hpi q).controls := by
  unfold settleFree
  split <;> simp

theorem settleRefill_controls : ((settleRefill r p s).hpi q).controls = (s.hpi q).controls := by
  unfold settleRefill
  dsimp only
  split <;> simp

theorem settleGrant_controls : ((settleGrant r p s).hpi q).controls = (s.hpi q).controls := by
  unfold settleGrant
  split <;> simp [State.moveQuota]

theorem settleRetest_controls : ((settleRetest r p s).hpi q).controls = (s.hpi q).controls := by
  unfold settleRetest
  split
  next => exact s.complete_controls p q ..
  next => exact s.complete_controls p q ..
  next => exact State.leaveOutstanding_controls { s with retest := _ } p q ..

theorem settleQueryPool_controls : ((settleQueryPool r p s).hpi q).controls = (s.hpi q).controls :=
  s.complete_controls p q ..

theorem settleOffer_controls : ((settleOffer r p s).hpi q).controls = (s.hpi q).controls := by
  unfold settleOffer
  split <;> simp [State.bindOffer]

theorem settleWithdraw_controls : ((settleWithdraw r p s).hpi q).controls = (s.hpi q).controls := by
  unfold settleWithdraw
  (repeat' split) <;> simp

theorem settleAccept_controls : ((settleAccept r p s).hpi q).controls = (s.hpi q).controls := by
  unfold settleAccept
  (repeat' split) <;> simp

theorem settleReject_controls : ((settleReject r p s).hpi q).controls = (s.hpi q).controls := by
  unfold settleReject
  (repeat' split) <;> simp

theorem settleClose_controls : ((settleClose r p s).hpi q).controls = (s.hpi q).controls := by
  unfold settleClose
  dsimp only
  (repeat' split) <;> simp

theorem settleQueryChannel_controls : ((settleQueryChannel r p s).hpi q).controls = (s.hpi q).controls := by
  unfold settleQueryChannel
  split <;> simp

theorem settlePost_controls : ((settlePost r p s).hpi q).controls = (s.hpi q).controls := by
  unfold settlePost State.postBuffer
  dsimp only
  (repeat' split) <;> simp

theorem settleTake_controls : ((settleTake r p s).hpi q).controls = (s.hpi q).controls := by
  unfold settleTake State.takeEmpty
  (repeat' split) <;> simp

theorem settleCollect_controls : ((settleCollect r p s).hpi q).controls = (s.hpi q).controls := by
  unfold settleCollect State.collectHead
  (repeat' split) <;> simp

theorem settleRelease_controls : ((settleRelease r p s).hpi q).controls = (s.hpi q).controls := by
  unfold settleRelease
  split <;> simp

theorem settleReturn_controls : ((settleReturn r p s).hpi q).controls = (s.hpi q).controls := by
  unfold settleReturn State.giveBack
  dsimp only
  (repeat' split) <;> simp

theorem settleRenew_controls : ((settleRenew r p s).hpi q).controls = (s.hpi q).controls := by
  unfold settleRenew State.renewRefused
  dsimp only
  (repeat' split) <;> simp

theorem settleMap_controls : ((settleMap r p s).hpi q).controls = (s.hpi q).controls := by
  unfold settleMap
  dsimp only
  split <;> simp

theorem settleUnmap_controls : ((settleUnmap r p s).hpi q).controls = (s.hpi q).controls := by
  unfold settleUnmap
  (repeat' split) <;> simp

end

/-- A presentation leaves the controls alone where its settlement does. -/
theorem State.present_controls {s : State} {k : ReqKind} {p : Port} {f : Request → Port → State → State}
    (hf : ∀ r p s q, ((f r p s).hpi q).controls = (s.hpi q).controls) (q : Port) :
    ((s.present k p f).hpi q).controls = (s.hpi q).controls := by
  obtain h | ⟨r, _, _, _, h⟩ := s.present_cases k p f
  · rw [h]
  · rw [h, hf]

/-! ### The law of the attention enable -/

/-- The enable of a port that is not ONLINE is clear (R157, R159): a part of `Hpi.bare`. -/
def Hpi.enableLaw (h : Hpi) : Prop := h.state ≠ .online → h.attnEnable = false

/-- From `s` to `t` no port loses the law of its enable. -/
def State.keepsEnableLaw (s t : State) : Prop := ∀ q, (s.hpi q).enableLaw → (t.hpi q).enableLaw

theorem Hpi.enableLaw_of_controls {h h' : Hpi} (hc : h'.controls = h.controls) (hl : h.enableLaw) : h'.enableLaw := by
  simp only [Hpi.controls, Prod.mk.injEq] at hc
  obtain ⟨hstate, -, henable, -⟩ := hc
  rwa [Hpi.enableLaw, hstate, henable]

theorem State.keepsEnableLaw_of_controls {s t : State} (hc : ∀ q, (t.hpi q).controls = (s.hpi q).controls) :
    s.keepsEnableLaw t := fun q => Hpi.enableLaw_of_controls (hc q)

theorem State.keepsEnableLaw_refl (s : State) : s.keepsEnableLaw s := fun _ => id

theorem State.keepsEnableLaw.trans {s t u : State} (h : s.keepsEnableLaw t) (k : t.keepsEnableLaw u) :
    s.keepsEnableLaw u := fun q => k q ∘ h q

/-- An update of one HPI that leaves it with the law. -/
theorem State.keepsEnableLaw_setHpi {s : State} {p : Port} {h : Hpi} (hl : (s.hpi p).enableLaw → h.enableLaw) :
    s.keepsEnableLaw (s.setHpi p h) := fun q hq => by
  rw [State.hpi_setHpi]
  split_ifs with hpq
  · subst hpq
    exact hl hq
  · exact hq

/-- An accepted submission makes no port other than ONLINE (R133, R134). -/
theorem State.keepsEnableLaw_enter (s : State) (p : Port) (k : ReqKind) : s.keepsEnableLaw (s.enter p k) := by
  have honline (r : Request) : s.keepsEnableLaw (s.setHpi p { s.hpi p with state := .online, table := [⟨r, .pending⟩] }) :=
    State.keepsEnableLaw_setHpi fun _ h => absurd rfl h
  unfold State.enter
  dsimp only
  split
  · exact State.keepsEnableLaw_of_controls (State.setHpi_controls (by rfl))
  · exact (honline _).trans (State.keepsEnableLaw_of_controls fun q => State.complete_controls ..)

theorem State.keepsEnableLaw_submit (s : State) (p : Port) : s.keepsEnableLaw (s.submit p) := by
  have hdrive (t : State) (w : Word) : t.keepsEnableLaw (t.driveData p w) :=
    State.keepsEnableLaw_of_controls (t.driveData_controls p · w)
  unfold State.submit
  dsimp only
  split
  · refine State.keepsEnableLaw.trans ?_ (hdrive _ _)
    split
    next k _ _ => exact s.keepsEnableLaw_enter p k
    next => exact s.keepsEnableLaw_refl
  · exact hdrive s _

/-- An enable write is taken from an ONLINE port alone (R174). -/
theorem State.keepsEnableLaw_writeEnable (s : State) (p : Port) (w : BusWrite) :
    s.keepsEnableLaw (s.writeEnable p w) := by
  unfold State.writeEnable
  split
  next h =>
    have hon : (s.hpi p).state = .online := by
      simp only [Bool.and_eq_true] at h
      obtain ⟨⟨-, hon⟩, -⟩ := h
      simpa [State.online] using hon
    exact State.keepsEnableLaw_setHpi fun _ hoff => absurd hon hoff
  next => exact s.keepsEnableLaw_refl

theorem State.keepsEnableLaw_readTickLow (s : State) (p : Port) : s.keepsEnableLaw (s.readTickLow p) := by
  unfold State.readTickLow
  split
  · exact State.keepsEnableLaw_setHpi id
  · exact State.keepsEnableLaw_of_controls fun q => s.driveData_controls p q _

theorem State.keepsEnableLaw_busWrite (s : State) (p : Port) (addr : BitVec 15) (w : BusWrite) :
    s.keepsEnableLaw (s.busWrite p addr w) := by
  unfold State.busWrite
  split
  next k _ => exact State.keepsEnableLaw_of_controls (s.writeStaging_controls p · k w)
  next a _ => exact State.keepsEnableLaw_of_controls (s.writeAperture_controls p · a w)
  next => exact State.keepsEnableLaw_of_controls (s.consumeHead_controls p)
  next => exact s.keepsEnableLaw_writeEnable p w
  next => exact State.keepsEnableLaw_of_controls (s.clearFault_controls p)
  all_goals exact s.keepsEnableLaw_refl

/-- A reclaim start clears the enable (R164). -/
theorem State.keepsEnableLaw_reclaimStart (s : State) (p : Port) : s.keepsEnableLaw (s.reclaimStart p) := by
  have hdrop : s.keepsEnableLaw (s.dropHoldings p) := by
    have hset : s.keepsEnableLaw (s.setHpi p { Hpi.reset with
        state := .reclaiming 0, resetIn := (s.hpi p).resetIn, tickLatch := (s.hpi p).tickLatch
        dataOut := (s.hpi p).dataOut }) := State.keepsEnableLaw_setHpi fun _ _ => rfl
    unfold State.dropHoldings
    dsimp only
    split <;> exact hset
  exact hdrop.trans (State.keepsEnableLaw_of_controls fun q =>
    State.foldl_controls (fun s c => s.reclaimChannel_controls c q p) _ _)

/-- The walk of a RECLAIMING port starts from a clear enable and does not set it (R168). -/
theorem State.keepsEnableLaw_walkStep (s : State) (p : Port) : s.keepsEnableLaw (s.walkStep p) := by
  unfold State.walkStep
  split
  next i hstate =>
    have hwalk (q : Port) := s.walkAt_controls i q p
    refine (State.keepsEnableLaw_of_controls hwalk).trans (State.keepsEnableLaw_setHpi fun hl _ => hl ?_)
    have hsame : ((s.walkAt p i).hpi p).state = (s.hpi p).state := congrArg Prod.fst (hwalk p)
    simp [hsame, hstate]
  all_goals exact s.keepsEnableLaw_refl

theorem State.keepsEnableLaw_attach (s : State) (p : Port) : s.keepsEnableLaw
    (if (s.hpi p).state = .offline then if kindOf (stagedKind (s.hpi p).staging) = some .attach then s.submit p else s
    else s.present .attach p settleAttach) := by
  split_ifs
  · exact s.keepsEnableLaw_submit p
  · exact s.keepsEnableLaw_refl
  · exact State.keepsEnableLaw_of_controls (State.present_controls settleAttach_controls)

theorem State.keepsEnableLaw_detach (s : State) (p : Port) :
    s.keepsEnableLaw (s.present .detach p settleDetach) := by
  obtain h | ⟨r, _, _, _, h⟩ := s.present_cases .detach p settleDetach
  · rw [h]; exact s.keepsEnableLaw_refl
  · rw [h]; exact s.keepsEnableLaw_reclaimStart p

theorem State.keepsEnableLaw_resetLevel (s : State) (p : Port) (level : Bool) :
    s.keepsEnableLaw (s.setHpi p { s.hpi p with resetIn := level }) := State.keepsEnableLaw_setHpi id

theorem State.keepsEnableLaw_portResetAssert (s : State) (p : Port) : s.keepsEnableLaw
    (if s.online p then (s.setHpi p { s.hpi p with resetIn := true }).reclaimStart p
    else s.setHpi p { s.hpi p with resetIn := true }) := by
  split
  · exact (s.keepsEnableLaw_resetLevel p true).trans (State.keepsEnableLaw_reclaimStart _ p)
  · exact s.keepsEnableLaw_resetLevel p true

/-- Device reset keeps of an HPI the level of its reset input alone (R171). -/
theorem State.hpi_deviceReset (s : State) (p : Port) :
    s.deviceReset.hpi p = { Hpi.reset with resetIn := (s.hpi p).resetIn } := by cases p <;> rfl

/-- Every command keeps the law of the attention enable. -/
theorem exec_keepsEnableLaw (c : Instr) (s : State) : ∃ t, exec c s = .next t ∧ s.keepsEnableLaw t := by
  have hcontrols {t : State} (hc : ∀ q, (t.hpi q).controls = (s.hpi q).controls) : s.keepsEnableLaw t :=
    State.keepsEnableLaw_of_controls hc
  have hpresent {k : ReqKind} {p : Port} {f : Request → Port → State → State}
      (hf : ∀ r p s q, ((f r p s).hpi q).controls = (s.hpi q).controls) : s.keepsEnableLaw (s.present k p f) :=
    State.keepsEnableLaw_of_controls (State.present_controls hf)
  have hports {t : State} (h : t.ports = s.ports) : s.keepsEnableLaw t := hcontrols (State.controls_of_ports h)
  cases c with
  | submission p => exact ⟨_, rfl, s.keepsEnableLaw_submit p⟩
  | registerWrite p addr w => exact ⟨_, rfl, s.keepsEnableLaw_busWrite p addr w⟩
  | consume p w => exact ⟨_, rfl, hcontrols (s.consumeHead_controls p)⟩
  | attentionEnableWrite p w => exact ⟨_, rfl, s.keepsEnableLaw_writeEnable p w⟩
  | faultClear p w => exact ⟨_, rfl, hcontrols (s.clearFault_controls p)⟩
  | tickLowRead p => exact ⟨_, rfl, s.keepsEnableLaw_readTickLow p⟩
  | apertureRead p addr => exact ⟨_, rfl, hcontrols (s.readAperture_controls p · addr)⟩
  | apertureWrite p addr w => exact ⟨_, rfl, hcontrols (s.writeAperture_controls p · addr w)⟩
  | attach p => exact ⟨_, rfl, s.keepsEnableLaw_attach p⟩
  | detach p => exact ⟨_, rfl, s.keepsEnableLaw_detach p⟩
  | cancel p => exact ⟨_, rfl, hpresent settleCancel_controls⟩
  | allocate p => exact ⟨_, rfl, hpresent settleAllocate_controls⟩
  | free p => exact ⟨_, rfl, hpresent settleFree_controls⟩
  | refill p => exact ⟨_, rfl, hpresent settleRefill_controls⟩
  | grant p => exact ⟨_, rfl, hpresent settleGrant_controls⟩
  | retest p => exact ⟨_, rfl, hpresent settleRetest_controls⟩
  | queryPool p => exact ⟨_, rfl, hpresent settleQueryPool_controls⟩
  | offer p => exact ⟨_, rfl, hpresent settleOffer_controls⟩
  | withdraw p => exact ⟨_, rfl, hpresent settleWithdraw_controls⟩
  | accept p => exact ⟨_, rfl, hpresent settleAccept_controls⟩
  | reject p => exact ⟨_, rfl, hpresent settleReject_controls⟩
  | close p => exact ⟨_, rfl, hpresent settleClose_controls⟩
  | queryChannel p => exact ⟨_, rfl, hpresent settleQueryChannel_controls⟩
  | post p => exact ⟨_, rfl, hpresent settlePost_controls⟩
  | take p => exact ⟨_, rfl, hpresent settleTake_controls⟩
  | collect p => exact ⟨_, rfl, hpresent settleCollect_controls⟩
  | release p => exact ⟨_, rfl, hpresent settleRelease_controls⟩
  | returnBuffer p => exact ⟨_, rfl, hpresent settleReturn_controls⟩
  | renew p => exact ⟨_, rfl, hpresent settleRenew_controls⟩
  | mapSlot p => exact ⟨_, rfl, hpresent settleMap_controls⟩
  | unmapSlot p => exact ⟨_, rfl, hpresent settleUnmap_controls⟩
  | poolReexamination => exact ⟨_, rfl, hcontrols s.reexamine_controls⟩
  | tick => exact ⟨_, rfl, hcontrols fun q => congrArg Hpi.controls (s.tickOnce_hpi q)⟩
  | allocationWaitExpiry p tag => exact ⟨_, rfl, hcontrols (s.expireAlloc_controls p · tag)⟩
  | takeWaitExpiry k tag => exact ⟨_, rfl, hcontrols (s.expireTake_controls · k tag)⟩
  | collectWaitExpiry k tag => exact ⟨_, rfl, hcontrols (s.expireCollect_controls · k tag)⟩
  | offerExpiry k => exact ⟨_, rfl, hcontrols (s.expireOffer_controls · k)⟩
  | holdExpiry i => exact ⟨_, rfl, hcontrols (s.expireHold_controls · i)⟩
  | blockTestEnd => exact ⟨_, rfl, hcontrols s.endTest_controls⟩
  | reclaimWalkStep p => exact ⟨_, rfl, s.keepsEnableLaw_walkStep p⟩
  | portResetAssert p => exact ⟨_, rfl, s.keepsEnableLaw_portResetAssert p⟩
  | portResetRelease p => exact ⟨_, rfl, s.keepsEnableLaw_resetLevel p false⟩
  | deviceReset => exact ⟨_, rfl, fun q _ _ => by rw [State.hpi_deviceReset]; rfl⟩
  | memoryClear => exact ⟨_, rfl, hports (by split <;> rfl)⟩
  | deviceReady => exact ⟨_, rfl, hports (by split <;> rfl)⟩
  | storedBitUpset w flips cells level =>
    exact ⟨_, rfl, hcontrols fun q => congrArg Hpi.controls (s.storedBitUpset_hpi q w flips cells level)⟩

end Sys2Proof.Machine

/-!
PROOFS. The port status word, the attention enable and the attention output (R158, R174): the words field by field and the
output as the three conditions of R158.
-/

namespace Sys2Proof.Machine

section
variable {s : State} {p : Port}

theorem State.online_iff : s.online p = true ↔ (s.hpi p).state = .online := by simp [State.online]

/-! ### The status word -/

theorem State.plainRead_status (h : s.busTaken p = true) : s.plainRead p 0x4020#15 = some (s.statusWord p) := by
  have hword : windowWord 0x4020#15 = .status := by simp [windowWord]
  simp [State.plainRead, h, hword]

theorem deviceCode_eq_flag (x : DeviceState) : deviceCode x = flag (x == .ready) := by cases x <;> rfl

theorem portStateCode_mod (x : PortState) : portStateCode x % 4 = portStateCode x := by cases x <;> rfl

/-- The bits of the port status word, with the two counts cut to their fields (R174). -/
theorem State.statusWord_bits (s : State) (p : Port) :
    (s.statusWord p).getLsbD 0 = (s.device == .ready) ∧
      ((s.statusWord p).extractLsb' 1 2).toNat = portStateCode (s.hpi p).state ∧
      (s.statusWord p).getLsbD 3 = false ∧
      ((s.statusWord p).extractLsb' 4 6).toNat = (s.hpi p).occupied % 64 ∧
      ((s.statusWord p).extractLsb' 10 4).toNat = (s.hpi p).outstanding % 16 ∧
      (s.statusWord p).extractLsb' 14 2 = 0#2 := by
  simp only [State.statusWord, deviceCode_eq_flag, BitVec.extractLsb'_or, BitVec.getLsbD_or]
  simp (disch := omega) only [field_extract_same, field_extract_outside, field_flag_getLsbD, field_getLsbD_outside,
    BitVec.or_zero, BitVec.zero_or, Bool.or_false, Nat.reducePow, portStateCode_mod, and_self]

/-! ### The attention enable -/

theorem State.plainRead_enable (h : s.busTaken p = true) :
    s.plainRead p 0x4021#15 = some (if (s.hpi p).attnEnable then 0x0001#16 else 0x0000#16) := by
  have hword : windowWord 0x4021#15 = .enable := by simp [windowWord]
  have hflag (b : Bool) : field 0 1 (flag b) = if b then 0x0001#16 else 0x0000#16 := by cases b <;> rfl
  simp [State.plainRead, h, hword, State.enableWord, hflag]

theorem State.writeEnable_eq (w : BusWrite) :
    s.writeEnable p w = if s.busTaken p = true ∧ s.online p = true ∧ w.low = true
      then s.setHpi p { s.hpi p with attnEnable := w.data.getLsbD 0 } else s := by
  simp only [State.writeEnable, Bool.and_eq_true, and_assoc]

/-! ### The attention output -/

theorem State.attention_iff :
    s.attention p = true ↔
      (s.hpi p).state = .online ∧ (s.hpi p).attnEnable = true ∧ 1 ≤ (s.hpi p).queue.length := by
  simp only [State.attention, Bool.and_eq_true, decide_eq_true_eq, State.online_iff, and_assoc]
  rfl

/-- Under either reset the port is not ONLINE, so the output is released (R37, R158, R163). -/
theorem State.attention_released (hlaw : s.resetLaw) (h : (s.hpi p).resetIn = true ∨ s.device = .initialising) :
    s.attention p = false := by
  obtain ⟨-, hdevice, hport⟩ := hlaw
  have hoff : (s.hpi p).state ≠ .online := by
    rcases h with hreset | hinit
    · exact hport p hreset
    · simp [hdevice hinit p]
  simpa using mt State.attention_iff.1 fun ⟨hon, _⟩ => hoff hon

end

/-- Settles O23: the words and the output by their equations, and the enable after a reclaim start by the law that every
command keeps. -/
theorem statusEnableAndAttention : Obligations.StatusEnableAndAttention := by
  unfold Obligations.StatusEnableAndAttention
  refine ⟨fun s p htaken hlaw => ?_, fun s p h => State.plainRead_ignored h _, fun s p h => State.plainRead_enable h,
    fun s p w => congrArg Host.Outcome.next (State.writeEnable_eq w),
    fun s p => ⟨State.attention_iff, State.attention_released⟩, fun c s t p h hc => ?_⟩
  · obtain ⟨hout, hroom, -, -⟩ := hlaw
    obtain ⟨hready, hstate, h3, hocc, houtst, htop⟩ := s.statusWord_bits p
    refine ⟨_, State.plainRead_status htaken, by rw [hready, beq_iff_eq], ?_, h3, ?_, ?_, by simp [htop]⟩
    · rw [hstate]
      cases (s.hpi p).state <;> rfl
    · rw [hocc, Nat.mod_eq_of_lt (by omega)]
    · rw [houtst, Nat.mod_eq_of_lt (by omega)]
  · rcases hc with rfl | ⟨hon, i, hi⟩
    · obtain rfl : s.deviceReset = t := Host.Outcome.next.inj h
      rw [State.hpi_deviceReset]
      rfl
    · obtain ⟨u, hu, hkeeps⟩ := exec_keepsEnableLaw c s
      obtain rfl : u = t := Host.Outcome.next.inj (hu.symm.trans h)
      exact hkeeps p (fun hoff => absurd (State.online_iff.1 hon) hoff) (by simp [hi])

end Sys2Proof.Machine

/-!
PROOFS. The tick words (R175). Ten commands can move a control of an HPI, and every other command keeps all four; of the
ten, device reset and a port's own read of the tick low word alone move its latch.
-/

namespace Sys2Proof.Machine

/-! ### The commands that move a control -/

/-- The commands that can move a control of an HPI: those of attachment and reclaim (R161 to R168), the resets, the window
writes that reach the attention enable (R174), and the read that loads the tick latch (R175). -/
def movesControl : Instr → Bool
  | .submission _ | .attach _ | .detach _ | .reclaimWalkStep _ | .portResetAssert _ | .portResetRelease _ | .deviceReset
  | .registerWrite _ _ _ | .attentionEnableWrite _ _ | .tickLowRead _ => true
  | _ => false

/-- Every other command leaves the controls of every port as they are. -/
theorem exec_controls {c : Instr} (hc : movesControl c = false) (s : State) :
    ∃ t, exec c s = .next t ∧ ∀ q, (t.hpi q).controls = (s.hpi q).controls := by
  cases c with
  | consume p w => exact ⟨_, rfl, s.consumeHead_controls p⟩
  | faultClear p w => exact ⟨_, rfl, s.clearFault_controls p⟩
  | apertureRead p addr => exact ⟨_, rfl, (s.readAperture_controls p · addr)⟩
  | apertureWrite p addr w => exact ⟨_, rfl, (s.writeAperture_controls p · addr w)⟩
  | cancel p => exact ⟨_, rfl, State.present_controls settleCancel_controls⟩
  | allocate p => exact ⟨_, rfl, State.present_controls settleAllocate_controls⟩
  | free p => exact ⟨_, rfl, State.present_controls settleFree_controls⟩
  | refill p => exact ⟨_, rfl, State.present_controls settleRefill_controls⟩
  | grant p => exact ⟨_, rfl, State.present_controls settleGrant_controls⟩
  | retest p => exact ⟨_, rfl, State.present_controls settleRetest_controls⟩
  | queryPool p => exact ⟨_, rfl, State.present_controls settleQueryPool_controls⟩
  | offer p => exact ⟨_, rfl, State.present_controls settleOffer_controls⟩
  | withdraw p => exact ⟨_, rfl, State.present_controls settleWithdraw_controls⟩
  | accept p => exact ⟨_, rfl, State.present_controls settleAccept_controls⟩
  | reject p => exact ⟨_, rfl, State.present_controls settleReject_controls⟩
  | close p => exact ⟨_, rfl, State.present_controls settleClose_controls⟩
  | queryChannel p => exact ⟨_, rfl, State.present_controls settleQueryChannel_controls⟩
  | post p => exact ⟨_, rfl, State.present_controls settlePost_controls⟩
  | take p => exact ⟨_, rfl, State.present_controls settleTake_controls⟩
  | collect p => exact ⟨_, rfl, State.present_controls settleCollect_controls⟩
  | release p => exact ⟨_, rfl, State.present_controls settleRelease_controls⟩
  | returnBuffer p => exact ⟨_, rfl, State.present_controls settleReturn_controls⟩
  | renew p => exact ⟨_, rfl, State.present_controls settleRenew_controls⟩
  | mapSlot p => exact ⟨_, rfl, State.present_controls settleMap_controls⟩
  | unmapSlot p => exact ⟨_, rfl, State.present_controls settleUnmap_controls⟩
  | poolReexamination => exact ⟨_, rfl, s.reexamine_controls⟩
  | tick => exact ⟨_, rfl, fun q => congrArg Hpi.controls (s.tickOnce_hpi q)⟩
  | allocationWaitExpiry p tag => exact ⟨_, rfl, (s.expireAlloc_controls p · tag)⟩
  | takeWaitExpiry k tag => exact ⟨_, rfl, (s.expireTake_controls · k tag)⟩
  | collectWaitExpiry k tag => exact ⟨_, rfl, (s.expireCollect_controls · k tag)⟩
  | offerExpiry k => exact ⟨_, rfl, (s.expireOffer_controls · k)⟩
  | holdExpiry i => exact ⟨_, rfl, (s.expireHold_controls · i)⟩
  | blockTestEnd => exact ⟨_, rfl, s.endTest_controls⟩
  | memoryClear => exact ⟨_, rfl, State.controls_of_ports (by split <;> rfl)⟩
  | deviceReady => exact ⟨_, rfl, State.controls_of_ports (by split <;> rfl)⟩
  | storedBitUpset w flips cells level =>
    exact ⟨_, rfl, fun q => congrArg Hpi.controls (s.storedBitUpset_hpi q w flips cells level)⟩
  | _ => cases hc

/-! ### What the movers of a control do to the latch -/

theorem State.latch_of_controls {s t : State} {q : Port} (hc : (t.hpi q).controls = (s.hpi q).controls) :
    (t.hpi q).tickLatch = (s.hpi q).tickLatch := by
  simp only [Hpi.controls, Prod.mk.injEq] at hc
  obtain ⟨-, -, -, hlatch⟩ := hc
  exact hlatch

/-- An update of one HPI that leaves its latch alone. -/
theorem State.setHpi_latch {s : State} {p : Port} {h : Hpi} (hl : h.tickLatch = (s.hpi p).tickLatch) (q : Port) :
    ((s.setHpi p h).hpi q).tickLatch = (s.hpi q).tickLatch := by
  rw [State.hpi_setHpi]
  split_ifs with hpq
  · rw [hl, hpq]
  · rfl

section
variable (s : State) (p q : Port)

/-- ATTACH and the other accepted submissions leave the latch as it is. -/
theorem State.enter_latch (k : ReqKind) : ((s.enter p k).hpi q).tickLatch = (s.hpi q).tickLatch := by
  unfold State.enter
  dsimp only
  split
  · exact State.setHpi_latch (by rfl) q
  · exact (State.latch_of_controls (State.complete_controls ..)).trans (State.setHpi_latch (by rfl) q)

theorem State.submit_latch : ((s.submit p).hpi q).tickLatch = (s.hpi q).tickLatch := by
  unfold State.submit
  dsimp only
  split
  · rw [State.latch_of_controls (State.driveData_controls ..)]
    split
    next k _ _ => exact s.enter_latch p q k
    next => rfl
  · exact State.latch_of_controls (s.driveData_controls p q _)

theorem State.writeEnable_latch (w : BusWrite) : ((s.writeEnable p w).hpi q).tickLatch = (s.hpi q).tickLatch := by
  unfold State.writeEnable
  split
  · exact State.setHpi_latch (by rfl) q
  · rfl

theorem State.busWrite_latch (addr : BitVec 15) (w : BusWrite) :
    ((s.busWrite p addr w).hpi q).tickLatch = (s.hpi q).tickLatch := by
  unfold State.busWrite
  split
  next k _ => exact State.latch_of_controls (s.writeStaging_controls p q k w)
  next a _ => exact State.latch_of_controls (s.writeAperture_controls p q a w)
  next => exact State.latch_of_controls (s.consumeHead_controls p q)
  next => exact s.writeEnable_latch p q w
  next => exact State.latch_of_controls (s.clearFault_controls p q)
  all_goals rfl

/-- A reclaim start drops what the port holds and keeps its latch (R164, R175). -/
theorem State.reclaimStart_latch : ((s.reclaimStart p).hpi q).tickLatch = (s.hpi q).tickLatch := by
  have hdrop : ((s.dropHoldings p).hpi q).tickLatch = (s.hpi q).tickLatch := by
    have hset : ((s.setHpi p { Hpi.reset with
        state := .reclaiming 0, resetIn := (s.hpi p).resetIn, tickLatch := (s.hpi p).tickLatch
        dataOut := (s.hpi p).dataOut }).hpi q).tickLatch = (s.hpi q).tickLatch := State.setHpi_latch (by rfl) q
    unfold State.dropHoldings
    dsimp only
    split <;> exact hset
  have hchannels : ((s.reclaimStart p).hpi q).controls = ((s.dropHoldings p).hpi q).controls :=
    State.foldl_controls (fun s c => s.reclaimChannel_controls c q p) _ _
  exact (State.latch_of_controls hchannels).trans hdrop

theorem State.walkStep_latch : ((s.walkStep p).hpi q).tickLatch = (s.hpi q).tickLatch := by
  unfold State.walkStep
  split
  next i _ => exact (State.setHpi_latch (by rfl) q).trans (State.latch_of_controls (s.walkAt_controls i q p))
  all_goals rfl

theorem State.attach_latch :
    ((if (s.hpi p).state = .offline then if kindOf (stagedKind (s.hpi p).staging) = some .attach then s.submit p else s
      else s.present .attach p settleAttach).hpi q).tickLatch = (s.hpi q).tickLatch := by
  split_ifs
  · exact s.submit_latch p q
  · rfl
  · exact State.latch_of_controls (State.present_controls settleAttach_controls q)

theorem State.detach_latch : ((s.present .detach p settleDetach).hpi q).tickLatch = (s.hpi q).tickLatch := by
  obtain h | ⟨r, _, _, _, h⟩ := s.present_cases .detach p settleDetach
  · rw [h]
  · rw [h]; exact s.reclaimStart_latch p q

theorem State.resetLevel_latch (level : Bool) :
    ((s.setHpi p { s.hpi p with resetIn := level }).hpi q).tickLatch = (s.hpi q).tickLatch :=
  State.setHpi_latch (by rfl) q

theorem State.portResetAssert_latch :
    ((if s.online p then (s.setHpi p { s.hpi p with resetIn := true }).reclaimStart p
      else s.setHpi p { s.hpi p with resetIn := true }).hpi q).tickLatch = (s.hpi q).tickLatch := by
  split
  · exact (State.reclaimStart_latch _ p q).trans (s.resetLevel_latch p q true)
  · exact s.resetLevel_latch p q true

end

/-! ### The tick words -/

theorem State.readTickLow_taken {s : State} {p : Port} (h : s.busTaken p = true) :
    s.readTickLow p = s.setHpi p { s.hpi p with
      dataOut := s.ticks.extractLsb' 0 16, tickLatch := s.ticks.extractLsb' 16 16 } := if_pos h

theorem State.readTickLow_ignored {s : State} {p : Port} (h : s.busTaken p = false) :
    s.readTickLow p = s.setHpi p { s.hpi p with dataOut := 0#16 } := if_neg (by simp [h])

/-- The reads of one port do not disturb another's latch. -/
theorem State.readTickLow_hpi_ne (s : State) {p q : Port} (hn : p ≠ q) : (s.readTickLow p).hpi q = s.hpi q := by
  unfold State.readTickLow
  split <;> exact s.hpi_setHpi_ne _ hn

theorem State.plainRead_tickHigh {s : State} {p : Port} (h : s.busTaken p = true) :
    s.plainRead p 0x4027#15 = some (s.hpi p).tickLatch := by
  have hword : windowWord 0x4027#15 = .tickHigh := by simp [windowWord]
  simp [State.plainRead, h, hword]

/-- No command but device reset and the port's own read of the tick low word moves its latch. -/
theorem exec_latch {c : Instr} {q : Port} (hreset : c ≠ .deviceReset) (hread : c ≠ .tickLowRead q) (s : State) :
    ∃ t, exec c s = .next t ∧ (t.hpi q).tickLatch = (s.hpi q).tickLatch := by
  cases hmoves : movesControl c with
  | false =>
    obtain ⟨t, ht, hcontrols⟩ := exec_controls hmoves s
    exact ⟨t, ht, State.latch_of_controls (hcontrols q)⟩
  | true =>
    cases c with
    | submission p => exact ⟨_, rfl, s.submit_latch p q⟩
    | registerWrite p addr w => exact ⟨_, rfl, s.busWrite_latch p q addr w⟩
    | attentionEnableWrite p w => exact ⟨_, rfl, s.writeEnable_latch p q w⟩
    | tickLowRead p =>
      have hn : p ≠ q := fun h => hread (by rw [h])
      exact ⟨_, rfl, by rw [s.readTickLow_hpi_ne hn]⟩
    | attach p => exact ⟨_, rfl, s.attach_latch p q⟩
    | detach p => exact ⟨_, rfl, s.detach_latch p q⟩
    | reclaimWalkStep p => exact ⟨_, rfl, s.walkStep_latch p q⟩
    | portResetAssert p => exact ⟨_, rfl, s.portResetAssert_latch p q⟩
    | portResetRelease p => exact ⟨_, rfl, s.resetLevel_latch p q false⟩
    | deviceReset => exact absurd rfl hreset
    | _ => cases hmoves

/-- Settles O24: the two words by their equations, and the frame of the latch by the commands that move a control. -/
theorem tickWords : Obligations.TickWords := by
  unfold Obligations.TickWords
  refine ⟨fun s p h => ⟨congrArg Host.Outcome.next (State.readTickLow_taken h), State.plainRead_tickHigh h⟩,
    fun s p h => congrArg Host.Outcome.next (State.readTickLow_ignored h), fun c s t p h => ⟨?_, fun hreset hread => ?_⟩⟩
  · rintro rfl
    obtain rfl : s.deviceReset = t := Host.Outcome.next.inj h
    rw [State.hpi_deviceReset]
    rfl
  · obtain ⟨u, hu, hlatch⟩ := exec_latch hreset hread s
    obtain rfl : u = t := Host.Outcome.next.inj (hu.symm.trans h)
    exact hlatch

end Sys2Proof.Machine

/-!
PROOFS. What a port is told. Completions, notices and the accesses of a port's own window reach its request table, its event
queue and its notice summary; said once: they leave the port state, the reset level and the read data alone, and keep the law
of R137 and R154 and the tags of the table differing (R136).
-/

namespace Sys2Proof.Machine

/-! ### One HPI -/

/-- No two entries of the request table hold the same tag (R136). -/
def Hpi.tagsDiffer (h : Hpi) : Prop := (h.table.map (fun e => e.req.tag)).Nodup

/-- From `h` to `h'` nothing of the port state, the reset level and the read data has changed, and the laws of the port's
requests and records are kept. -/
structure Hpi.told (h h' : Hpi) : Prop where
  state : h'.state = h.state
  resetIn : h'.resetIn = h.resetIn
  dataOut : h'.dataOut = h.dataOut
  laws : h.law → h.tagsDiffer → h'.law ∧ h'.tagsDiffer

theorem Hpi.told_refl (h : Hpi) : h.told h := ⟨rfl, rfl, rfl, fun hl ht => ⟨hl, ht⟩⟩

theorem Hpi.told.trans {h i j : Hpi} (a : h.told i) (b : i.told j) : h.told j :=
  ⟨b.state.trans a.state, b.resetIn.trans a.resetIn, b.dataOut.trans a.dataOut, fun hl ht =>
    have ⟨il, it⟩ := a.laws hl ht
    b.laws il it⟩

/-- An entry has left the table for a record at the tail of the queue (R142). -/
theorem Hpi.told_completion {h : Hpi} {tag : Tag} {e : Entry} (x : EventRecord)
    (hfind : h.table.find? (fun e => e.req.tag == tag) = some e) :
    h.told { h with table := h.table.eraseP (fun e => e.req.tag == tag), queue := h.queue ++ [x] } := by
  have hmem := List.mem_of_find?_eq_some hfind
  have hlen := List.length_eraseP_of_mem hmem (List.find?_some hfind)
  have hpos := List.length_pos_of_mem hmem
  refine ⟨rfl, rfl, rfl, fun ⟨h8, h32, hbare, hfull⟩ ht => ⟨⟨?_, ?_, fun hs => ?_, fun he => ?_⟩, ?_⟩⟩
  · simp only [Hpi.outstanding] at h8 ⊢
    omega
  · simp only [Hpi.outstanding, Hpi.occupied, List.length_append, List.length_singleton] at h32 ⊢
    omega
  · exact absurd hmem (by simp [(hbare hs).1])
  · have := hfull he
    simp only [Hpi.outstanding, Hpi.occupied, List.length_append, List.length_singleton] at this ⊢
    omega
  · exact ht.sublist (List.Sublist.map _ List.eraseP_sublist)

/-- A record has been written into a free entry with the summary empty (R152). -/
theorem Hpi.told_written {h : Hpi} (x : EventRecord) (ho : h.state = .online) (he : h.summaryEmpty = true)
    (hr : h.occupied + h.outstanding < 32) : h.told { h with queue := h.queue ++ [x] } := by
  refine ⟨rfl, rfl, rfl, fun ⟨h8, _, _, _⟩ ht => ⟨⟨h8, ?_, fun hs => absurd ho hs, fun hn => ?_⟩, ht⟩⟩
  · simp only [Hpi.outstanding, Hpi.occupied, List.length_append, List.length_singleton] at hr ⊢
    omega
  · exact absurd (he.symm.trans hn) (by decide)

/-- A notice has been folded for want of a free entry or behind an earlier one (R152, R154). -/
theorem Hpi.told_folded {h : Hpi} (k : NoticeKind) (c : BitVec 4) (ho : h.state = .online)
    (hf : ¬(h.summaryEmpty = true ∧ h.occupied + h.outstanding < 32)) : h.told (h.fold k c) := by
  refine ⟨rfl, rfl, rfl, fun ⟨h8, h32, _, hfull⟩ ht => ⟨⟨h8, h32, fun hs => absurd ho hs, fun _ => ?_⟩, ht⟩⟩
  by_cases he : h.summaryEmpty = true
  · have := mt (And.intro he) hf
    change h.occupied + h.outstanding = 32
    omega
  · exact hfull (by simpa using he)

/-- Whatever leaves the table, the queue and the summary of an ONLINE port alone. -/
theorem Hpi.told_online {h h' : Hpi} (ho : h.state = .online) (hs : h'.state = h.state) (hr : h'.resetIn = h.resetIn)
    (hd : h'.dataOut = h.dataOut) (ht : h'.table.map (fun e => e.req.tag) = h.table.map (fun e => e.req.tag))
    (hq : h'.queue = h.queue) (hk : h'.sumKinds = h.sumKinds) (hc : h'.sumChannels = h.sumChannels) : h.told h' := by
  have hlen : h'.table.length = h.table.length := by simpa using congrArg List.length ht
  refine ⟨hs, hr, hd, fun ⟨h8, h32, _, hfull⟩ hd => ⟨⟨?_, ?_, fun hn => absurd (hs.trans ho) hn, fun he => ?_⟩, ?_⟩⟩
  · rwa [Hpi.outstanding, hlen]
  · rwa [Hpi.outstanding, Hpi.occupied, hlen, hq]
  · rw [Hpi.outstanding, Hpi.occupied, hlen, hq]
    exact hfull (by rwa [Hpi.summaryEmpty, hk, hc] at he)
  · rwa [Hpi.tagsDiffer, ht]

/-! ### The state -/

/-- From `s` to `t` the ports have been told something, words of buffer memory have been stored and free values drawn, and
nothing else has changed. -/
structure State.tells (s t : State) : Prop where
  core : t = { s with ports := t.ports, mem := t.mem, upsets := t.upsets, freeDraws := t.freeDraws }
  hpis : ∀ q, (s.hpi q).told (t.hpi q)
  form : s.memoryWf → t.memoryWf

theorem State.tells_refl (s : State) : s.tells s := ⟨rfl, fun q => (s.hpi q).told_refl, id⟩

theorem State.tells.trans {s t u : State} (a : s.tells t) (b : t.tells u) : s.tells u := by
  refine ⟨?_, fun q => (a.hpis q).trans (b.hpis q), b.form ∘ a.form⟩
  have ha := a.core
  have hb := b.core
  cases s; cases t; cases u
  simp only [State.mk.injEq] at ha hb ⊢
  simp_all

section
variable {s t : State} (h : s.tells t)
include h

theorem State.tells.resetIn : t.resetIn = s.resetIn := (congrArg State.resetIn h.core).trans rfl
theorem State.tells.device : t.device = s.device := (congrArg State.device h.core).trans rfl
theorem State.tells.ticks : t.ticks = s.ticks := (congrArg State.ticks h.core).trans rfl
theorem State.tells.descs : t.descs = s.descs := (congrArg State.descs h.core).trans rfl
theorem State.tells.blocks : t.blocks = s.blocks := (congrArg State.blocks h.core).trans rfl
theorem State.tells.freeList : t.freeList = s.freeList := (congrArg State.freeList h.core).trans rfl
theorem State.tells.retired : t.retired = s.retired := (congrArg State.retired h.core).trans rfl
theorem State.tells.quotas : t.quotas = s.quotas := (congrArg State.quotas h.core).trans rfl
theorem State.tells.allocWaits : t.allocWaits = s.allocWaits := (congrArg State.allocWaits h.core).trans rfl
theorem State.tells.reexamsDue : t.reexamsDue = s.reexamsDue := (congrArg State.reexamsDue h.core).trans rfl
theorem State.tells.chans : t.chans = s.chans := (congrArg State.chans h.core).trans rfl
theorem State.tells.stuckCells : t.stuckCells = s.stuckCells := (congrArg State.stuckCells h.core).trans rfl
theorem State.tells.retest : t.retest = s.retest := (congrArg State.retest h.core).trans rfl
theorem State.tells.pending : t.pending = s.pending := (congrArg State.pending h.core).trans rfl

theorem State.tells.desc (i : DescIx) : t.desc i = s.desc i := State.desc_of_descs h.descs i
theorem State.tells.chan (c : ChanIx) : t.chan c = s.chan c := by simp only [State.chan, h.chans]
theorem State.tells.online (p : Port) : t.online p = s.online p := by simp only [State.online, (h.hpis p).state]

end

theorem State.tells_setHpi {s : State} {p : Port} {h : Hpi} (ht : (s.hpi p).told h) : s.tells (s.setHpi p h) := by
  refine ⟨rfl, fun q => ?_, id⟩
  rw [State.hpi_setHpi]
  split_ifs with hpq
  · exact hpq ▸ ht
  · exact (s.hpi q).told_refl

theorem State.tells_foldl {α : Type} {f : State → α → State} (hf : ∀ (s : State) (x : α), s.tells (f s x)) (l : List α)
    (s : State) : s.tells (l.foldl f s) := by
  induction l generalizing s with
  | nil => exact s.tells_refl
  | cons x rest ih => exact (hf s x).trans (ih _)

/-! ### Completions and notices -/

section
variable (s : State) (p : Port)

theorem State.complete_tells (tag : Tag) (r : ResultCode) (v : Vals) : s.tells (s.complete p tag r v) := by
  cases h : (s.hpi p).table.find? (fun e => e.req.tag == tag) with
  | none => rw [State.complete_of_not_find _ _ _ _ _ h]; exact s.tells_refl
  | some e => rw [State.complete_of_find _ _ _ _ _ h]; exact State.tells_setHpi (Hpi.told_completion _ h)

theorem State.notice_tells (k : NoticeKind) (v : Vals) : s.tells (s.notice p k v) := by
  by_cases ho : s.online p = true
  · by_cases hf : (s.hpi p).summaryEmpty = true ∧ (s.hpi p).occupied + (s.hpi p).outstanding < 32
    · rw [s.notice_written p k v ho hf.1 hf.2]
      exact State.tells_setHpi (Hpi.told_written _ (State.online_iff.1 ho) hf.1 hf.2)
    · rw [s.notice_folded p k v ho hf]
      exact State.tells_setHpi (Hpi.told_folded _ _ (State.online_iff.1 ho) hf)
  · rw [s.notice_offline p k v (by simpa using ho)]
    exact s.tells_refl

theorem State.completeAll_tells (ws : List Wait) (r : ResultCode) (v : Vals) : s.tells (s.completeAll p ws r v) :=
  State.tells_foldl (f := fun s (w : Wait) => s.complete p w.tag r v) (fun s w => s.complete_tells p w.tag r v) ws s

theorem State.drawn_tells : s.tells s.drawn := ⟨rfl, fun q => (s.hpi q).told_refl, id⟩

theorem State.refuseOnChannel_tells (r : Request) (code : ResultCode) : s.tells (s.refuseOnChannel p r code) := by
  unfold State.refuseOnChannel
  split
  · exact s.drawn_tells.trans (State.complete_tells ..)
  · exact s.complete_tells ..

theorem State.noticeReturns_tells (c : ChanIx) (e : Bool) : s.tells (s.noticeReturns c e) := by
  unfold State.noticeReturns
  split
  · exact s.tells_refl
  · split
    · exact s.notice_tells ..
    · exact s.tells_refl

/-- A request left WAITING or RUNNING (R139). -/
theorem State.leaveOutstanding_tells (tag : Tag) (x : EntryState) : s.tells (s.leaveOutstanding p tag x) := by
  have htags : ((s.hpi p).table.map (fun e => if e.req.tag = tag then { e with state := x } else e)).map
      (fun e => e.req.tag) = (s.hpi p).table.map (fun e => e.req.tag) := by
    rw [List.map_map]
    refine List.map_congr_left fun e _ => ?_
    simp only [Function.comp]
    split <;> rfl
  refine State.tells_setHpi ⟨rfl, rfl, rfl, fun ⟨h8, h32, hbare, hfull⟩ ht => ⟨⟨?_, ?_, fun hs => ?_, fun he => ?_⟩, ?_⟩⟩
  · simpa [Hpi.outstanding] using h8
  · simpa [Hpi.outstanding, Hpi.occupied] using h32
  · obtain ⟨hb, hrest⟩ := hbare hs
    exact ⟨by simp [hb], hrest⟩
  · simpa [Hpi.outstanding, Hpi.occupied] using hfull he
  · rwa [Hpi.tagsDiffer, htags]

/-! ### The port's own window and slots -/

variable {s p}

theorem State.setSlot_tells (ho : s.online p = true) (k : Fin 8) (x : Option Word) : s.tells (s.setSlot p k x) :=
  State.tells_setHpi (Hpi.told_online (State.online_iff.1 ho) rfl rfl rfl rfl rfl rfl rfl)

theorem State.captureFault_tells (ho : s.online p = true) (k : Fin 8) (o : Nat) (dir : Direction) (f : FaultKind) :
    s.tells (s.captureFault p k o dir f) := by
  unfold State.captureFault
  split
  · exact State.tells_setHpi (Hpi.told_online (State.online_iff.1 ho) rfl rfl rfl rfl rfl rfl rfl)
  · refine State.tells.trans (State.tells_setHpi ?_) (State.notice_tells ..)
    exact Hpi.told_online (State.online_iff.1 ho) rfl rfl rfl rfl rfl rfl rfl

theorem State.refuseAccess_tells (ho : s.online p = true) (addr : BitVec 14) (dir : Direction) (f : FaultKind) :
    s.tells (s.refuseAccess p addr dir f) := by
  unfold State.refuseAccess
  dsimp only
  split_ifs
  · have h := State.setSlot_tells ho (apertureSlot addr) none
    exact h.trans (State.captureFault_tells (by rw [h.online, ho]) ..)
  · exact State.captureFault_tells ho ..

theorem State.storeWord_tells (w : MemIx) (d : Word) : s.tells (s.storeWord w d) :=
  ⟨rfl, fun q => (s.hpi q).told_refl, fun ⟨hm, hu, hk⟩ =>
    have ⟨hm', hu'⟩ := storeWord_keeps_form s w d hm hu
    ⟨hm', hu', hk⟩⟩

theorem State.writeEnable_tells (w : BusWrite) : s.tells (s.writeEnable p w) := by
  rw [State.writeEnable_eq]
  split_ifs with h
  · exact State.tells_setHpi (Hpi.told_online (State.online_iff.1 h.2.1) rfl rfl rfl rfl rfl rfl rfl)
  · exact s.tells_refl

theorem State.clearFault_tells : s.tells (s.clearFault p) := by
  unfold State.clearFault
  split_ifs with h
  · rw [Bool.and_eq_true] at h
    exact State.tells_setHpi (Hpi.told_online (State.online_iff.1 h.2) rfl rfl rfl rfl rfl rfl rfl)
  · exact s.tells_refl

theorem State.writeStaging_tells (k : Fin 8) (w : BusWrite) : s.tells (s.writeStaging p k w) := by
  unfold State.writeStaging
  split_ifs
  · exact State.tells_setHpi ⟨rfl, rfl, rfl, fun hl ht => ⟨hl, ht⟩⟩
  · exact s.tells_refl

/-- A consume frees the entry into which a non-empty summary is written at once (R151, R155). -/
theorem State.consumeHead_tells : s.tells (s.consumeHead p) := by
  cases hb : s.busTaken p with
  | false => rw [State.consumeHead_idle (.inl hb)]; exact s.tells_refl
  | true =>
    cases hq : (s.hpi p).queue with
    | nil => rw [State.consumeHead_idle (.inr hq)]; exact s.tells_refl
    | cons x rest =>
      rw [State.consumeHead_cons hb hq]
      have hlen : (s.hpi p).queue.length = rest.length + 1 := by simp [hq]
      have hnb : ¬(s.hpi p).bare := fun hbare => by
        rw [hbare.2.1] at hq
        exact absurd hq (by simp)
      split_ifs with he
      · refine State.tells_setHpi ⟨rfl, rfl, rfl, fun ⟨h8, h32, hbare, _⟩ ht =>
          ⟨⟨h8, ?_, fun hs => absurd (hbare hs) hnb, fun hn => ?_⟩, ht⟩⟩
        · simp only [Hpi.occupied, Hpi.outstanding] at h32 ⊢
          omega
        · exact absurd (he.symm.trans hn) (by decide)
      · refine State.tells_setHpi ⟨rfl, rfl, rfl, fun ⟨h8, h32, hbare, _⟩ ht =>
          ⟨⟨h8, ?_, fun hs => absurd (hbare hs) hnb, fun hn => absurd hn (by simp [Hpi.summaryEmpty])⟩, ht⟩⟩
        simp only [Hpi.occupied, Hpi.outstanding, List.length_append, List.length_singleton] at h32 ⊢
        omega

/-- An accepted submission of an ONLINE port (R133): the answer says that an entry, a reservation and the tag are free. -/
theorem State.enter_tells (ho : s.online p = true) (ha : s.submitAnswer p = .accepted) (k : ReqKind) :
    s.tells (s.enter p k) := by
  unfold State.submitAnswer at ha
  dsimp only at ha
  split_ifs at ha with _ _ _ _ htag h8 h32
  simp only [State.enter, ho, if_true]
  refine State.tells_setHpi ⟨rfl, rfl, rfl, fun hl ht => ?_⟩
  obtain ⟨_, _, _, hfull⟩ := hl
  simp only [Hpi.outstanding, Hpi.occupied] at h8 h32 hfull
  refine ⟨⟨?_, ?_, fun hs => absurd (State.online_iff.1 ho) hs, fun he => ?_⟩, ?_⟩
  · simp only [Hpi.outstanding, List.length_append, List.length_singleton]
    omega
  · simp only [Hpi.outstanding, Hpi.occupied, List.length_append, List.length_singleton]
    omega
  · have := hfull he
    omega
  · rw [Hpi.tagsDiffer, List.map_append, List.nodup_append]
    refine ⟨ht, by simp, fun x hx y hy => ?_⟩
    obtain ⟨e, he, rfl⟩ := List.mem_map.1 hx
    obtain rfl : y = stagedTag (s.hpi p).staging := by simpa [stagedRequest] using hy
    intro heq
    exact htag (List.any_eq_true.2 ⟨e, he, by simpa using heq⟩)

end

end Sys2Proof.Machine

/-!
PROOFS. What a command can do, said once. Between two commands the part goes through moves, each small enough to keep the
laws of the device and whole enough not to break them in the middle: a buffer leaves a queue, a request joins a wait list, a
channel unbinds. A command is a chain of such moves with at most one move of a buffer to a new life ahead of them, or it is
one of the few events listed in `Effect`. A law that every move keeps is kept by every command.
-/

namespace Sys2Proof.Machine

/-- Channel `c` is not CLOSING with nothing in transit (R56). -/
def State.settled (s : State) (c : ChanIx) : Prop := (s.chan c).state = .closing → 0 < s.inTransit c

/-- A move of the part. `k` names the channel that the event drains, which may stand CLOSING with nothing in transit until
the event ends. -/
inductive Move (k : Option ChanIx) : State → State → Prop
  /-- Something is told to the ports. -/
  | tells {s t : State} (h : s.tells t) : Move k s t
  /-- A descriptor outside the queues becomes FREE (R12). -/
  | free {s : State} {i : DescIx} (hq : (s.desc i).state ≠ .queued) (hr : (s.desc i).state ≠ .returning)
      (hk : ∀ c, (s.desc i).heldOn c = true → k = some c) : Move k s (s.freeDesc i)
  /-- The head of a forward queue leaves it and becomes FREE (R53). -/
  | freeForward {s : State} {c : ChanIx} {a : Active} {i : DescIx} {rest : List DescIx} (hc : s.chan c = .active a)
      (hf : a.forward = i :: rest) (hk : k = some c) :
      Move k s ((s.setChan c (.active { a with forward := rest })).freeDesc i)
  /-- The head of a return queue leaves it and becomes FREE (R166). -/
  | freeReturn {s : State} {c : ChanIx} {a : Active} {i : DescIx} {rest : List DescIx} (hc : s.chan c = .active a)
      (hf : a.returns = i :: rest) (hk : k = some c) :
      Move k s ((s.setChan c (.active { a with returns := rest })).freeDesc i)
  /-- The head of a forward queue is bounced to the oldest waiting COLLECT (R54). -/
  | bounceCollect {s : State} {c : ChanIx} {a : Active} {i : DescIx} {rest : List DescIx} {w : Wait} {ws : List Wait}
      {b : Buf} {t : Traffic} {r : Came} (hc : s.chan c = .active a) (hf : a.forward = i :: rest)
      (hl : (s.desc i).life = .queued b t) (hw : a.collectWaits = w :: ws)
      (ho : s.online a.params.producer = true) (hk : k = some c) :
      Move k s ((s.setChan c (.active { a with forward := rest, collectWaits := ws })).setLife i (.collected b t r))
  /-- The head of a forward queue is bounced to the tail of the return queue (R54). -/
  | bounceReturn {s : State} {c : ChanIx} {a : Active} {i : DescIx} {rest : List DescIx} {b : Buf} {t : Traffic} {r : Came}
      (hc : s.chan c = .active a) (hf : a.forward = i :: rest) (hl : (s.desc i).life = .queued b t)
      (hw : a.collectWaits = []) (hk : k = some c) :
      Move k s ((s.setChan c (.active { a with forward := rest, returns := a.returns ++ [i] })).setLife i
        (.returning b t r))
  /-- The head of a forward queue is no QUEUED descriptor, which no run reaches, and is dropped. -/
  | dropStray {s : State} {c : ChanIx} {a : Active} {i : DescIx} {rest : List DescIx} (hc : s.chan c = .active a)
      (hf : a.forward = i :: rest) (hl : (s.desc i).state ≠ .queued) (hk : k = some c) :
      Move k s (s.setChan c (.active { a with forward := rest }))
  /-- An end is closed and the waiting TAKEs are gone (R52, R53). -/
  | close {s : State} {c : ChanIx} {a : Active} {x y : Bool} (hc : s.chan c = .active a)
      (hx : a.closedProducer = true → x = true) (hy : a.closedConsumer = true → y = true) (hxy : x = true ∨ y = true)
      (hk : k = some c) :
      Move k s (s.setChan c (.active { a with closedProducer := x, closedConsumer := y, takeWaits := [] }))
  /-- A channel with nothing in transit unbinds (R56). -/
  | unbind {s : State} {c : ChanIx} {a : Active} (hc : s.chan c = .active a) (h0 : s.inTransit c = 0) :
      Move k s (s.setChan c .unbound)
  /-- An offer ends (R47 to R49, R165). -/
  | unoffer {s : State} {c : ChanIx} {m : ChanParams} {tag : Tag} {timer : Timer} (hc : s.chan c = .offered m tag timer) :
      Move k s (s.setChan c .unbound)
  /-- Waiting TAKEs and COLLECTs leave their lists. -/
  | leaveWaits {s : State} {c : ChanIx} {a : Active} {tw cw : List Wait} (hc : s.chan c = .active a)
      (ht : tw.Sublist a.takeWaits) (hw : cw.Sublist a.collectWaits) :
      Move k s (s.setChan c (.active { a with takeWaits := tw, collectWaits := cw }))
  /-- A TAKE joins its list (R68). -/
  | joinTakes {s : State} {c : ChanIx} {a : Active} {w : Wait} (hc : s.chan c = .active a) (hf : a.forward = [])
      (hp : a.closedProducer = false) (hq : a.closedConsumer = false) (ho : s.online a.params.consumer = true) :
      Move k s (s.setChan c (.active { a with takeWaits := a.takeWaits ++ [w] }))
  /-- A COLLECT joins its list (R80). -/
  | joinCollects {s : State} {c : ChanIx} {a : Active} {w : Wait} (hc : s.chan c = .active a) (hf : a.returns = [])
      (ho : s.online a.params.producer = true) :
      Move k s (s.setChan c (.active { a with collectWaits := a.collectWaits ++ [w] }))
  /-- An ALLOCATE joins the allocation wait list (R25 to R27). -/
  | joinAllocs {s : State} {e : AllocWait} (ho : s.online e.port = true)
      (hq : s.charged e.port + s.waitingDemand e.port + e.count ≤ s.quotas.get e.port)
      (hg : s.allocWaits = [] → s.canGive e.count = none) :
      Move k s { s with allocWaits := s.allocWaits ++ [e] }
  /-- An ALLOCATE leaves the allocation wait list unserved (R30, R31). -/
  | dropAlloc {s : State} (p : Port) (tag : Tag) : Move k s (s.dropAllocWait p tag)
  /-- An uncorrectable error marks a block and its buffer (R117, R118). -/
  | damage {s : State} {i : DescIx} {b : BlockIx} (hb : b ∈ (s.desc i).blockList) :
      Move k s ((s.setBlock b { s.block b with suspect := true }).setDesc i (s.desc i).withDamage)
  /-- A hold is renewed (R91). -/
  | renew {s : State} {i : DescIx} {b : Buf} {t : Traffic} {p : Port} {x : Option Timer} {n : Nat}
      (hl : (s.desc i).life = .held b t p x n) (y : Option Timer) (m : Nat) :
      Move k s (s.setLife i (.held b t p y m))
  /-- A RETEST starts (R123). -/
  | startRetest {s : State} {b : BlockIx} {rest : List BlockIx} (q : Option (Port × Tag)) (h : s.retest = none)
      (hr : s.retired = b :: rest) :
      Move k s { s with retest := some ⟨q, rest.length + 1, rest.length + 1, 0, b, []⟩ }
  /-- A block test ends, and the next one begins or the operation ends (R124, R125). -/
  | endTest {s : State} {x : Retest} {y : Option Retest} (pass : Bool) (hx : s.retest = some x)
      (hy : y = none ∨ ∃ n b m, x.remaining = n + 2 ∧ (s.takeResult x.block pass).retired.head? = some b ∧
        y = some { x with remaining := n + 1, passed := m, block := b, disturbed := [] }) :
      Move k s { s.takeResult x.block pass with retest := y }
  /-- Stored bits are upset (R114). -/
  | upset {s : State} (w : MemIx) (flips cells level : StoredBits) :
      Move k s ((s.noteUpset w flips cells).upsetWord w flips cells level)
  /-- An ONLINE port loses its holdings at its reclaim start (R164). -/
  | depart {s : State} {p : Port} (ho : s.online p = true) : Move k s (s.dropHoldings p)
  /-- An OFFLINE port becomes ONLINE by its ATTACH (R134). -/
  | attach {s : State} {p : Port} {h : Hpi} (hoff : (s.hpi p).state = .offline) (hd : s.device ≠ .initialising)
      (hin : (s.hpi p).resetIn = false) (hs : h.state = .online) (hr : h.resetIn = (s.hpi p).resetIn)
      (ho : h.dataOut = (s.hpi p).dataOut)
      (hl : (s.hpi p).law → (s.hpi p).tagsDiffer → h.law ∧ h.tagsDiffer) : Move k s (s.setHpi p h)

/-- A buffer moves to a new life. -/
inductive Shift (k : Option ChanIx) : State → State → Prop
  /-- FREE descriptor `i` is allocated to an ONLINE port within its quota (R26). -/
  | allocate {s : State} {p : Port} {n : Nat} {i : DescIx} (ho : s.online p = true) (hi : (s.desc i).state = .free)
      (hn : n ≤ s.freeList.length) (hq : s.charged p + s.waitingDemand p + n ≤ s.quotas.get p) :
      Shift k s (s.allocTo p n i)
  /-- A posted buffer joins the forward queue (R64). -/
  | post {s : State} {c : ChanIx} {a : Active} {i : DescIx} {b : Buf} {t : Traffic} (hc : s.chan c = .active a)
      (hs : (s.chan c).state = .opened) (hd : s.inTransit c < a.params.depthLimit) (hl : (s.desc i).life = .filling b)
      (hb : b.origin = a.params.producer) (ht : t.channel = c) (hseq : t.sequence = a.nextSequence)
      (hw : a.takeWaits = []) :
      Shift k s ((s.setChan c (.active { a with nextSequence := a.nextSequence + 1#16, forward := a.forward ++ [i] })).setLife
        i (.queued b t))
  /-- A posted buffer goes to the oldest waiting TAKE (R63). -/
  | postTaken {s : State} {c : ChanIx} {a : Active} {i : DescIx} {b : Buf} {t : Traffic} {w : Wait} {ws : List Wait}
      (hc : s.chan c = .active a) (hs : (s.chan c).state = .opened) (hd : s.inTransit c < a.params.depthLimit)
      (hl : (s.desc i).life = .filling b) (hb : b.origin = a.params.producer) (ht : t.channel = c)
      (hw : a.takeWaits = w :: ws) (x : Option Timer) :
      Shift k s ((s.setChan c (.active { a with nextSequence := a.nextSequence + 1#16, takeWaits := ws })).setLife i
        (.held b t a.params.consumer x 0))
  /-- The head of a forward queue is taken by the ONLINE consumer (R67). -/
  | take {s : State} {c : ChanIx} {a : Active} {i : DescIx} {rest : List DescIx} {b : Buf} {t : Traffic}
      (hc : s.chan c = .active a) (hf : a.forward = i :: rest) (hl : (s.desc i).life = .queued b t)
      (ho : s.online a.params.consumer = true) (x : Option Timer) :
      Shift k s ((s.setChan c (.active { a with forward := rest })).setLife i (.held b t a.params.consumer x 0))
  /-- The head of a return queue is collected by the ONLINE producer (R79). -/
  | collect {s : State} {c : ChanIx} {a : Active} {i : DescIx} {rest : List DescIx} {b : Buf} {t : Traffic} {r : Came}
      (hc : s.chan c = .active a) (hf : a.returns = i :: rest) (hl : (s.desc i).life = .returning b t r)
      (ho : s.online a.params.producer = true) (hk : k = some c) :
      Shift k s ((s.setChan c (.active { a with returns := rest })).setLife i (.collected b t r))
  /-- A HELD buffer comes back to the oldest waiting COLLECT of its ONLINE producer (R73). -/
  | comeCollect {s : State} {a : Active} {i : DescIx} {w : Wait} {ws : List Wait} {b : Buf} {t : Traffic} {p : Port}
      {x : Option Timer} {n : Nat} (hl : (s.desc i).life = .held b t p x n) (hc : s.chan t.channel = .active a)
      (ho : s.online a.params.producer = true) (hw : a.collectWaits = w :: ws) (hk : k = some t.channel) (r : Came) :
      Shift k s ((s.setChan t.channel (.active { a with collectWaits := ws })).setLife i (.collected b t r))
  /-- A HELD buffer comes back to the tail of the return queue (R73). -/
  | comeReturn {s : State} {a : Active} {i : DescIx} {b : Buf} {t : Traffic} {p : Port} {x : Option Timer} {n : Nat}
      (hl : (s.desc i).life = .held b t p x n) (hc : s.chan t.channel = .active a) (hw : a.collectWaits = [])
      (hk : k = some t.channel) (r : Came) :
      Shift k s ((s.setChan t.channel (.active { a with returns := a.returns ++ [i] })).setLife i (.returning b t r))
  /-- A COLLECTED buffer is FILLING again (R83). -/
  | refill {s : State} {i : DescIx} {b : Buf} {t : Traffic} {r : Came} (hl : (s.desc i).life = .collected b t r) :
      Shift k s (s.setLife i (.filling b))

/-- A channel is bound or opened. -/
inductive Bind : State → State → Prop
  /-- An UNBOUND channel is offered between two different ports (R43, R44). -/
  | offer {s : State} {c : ChanIx} {m : ChanParams} (hc : s.chan c = .unbound) (hm : m.producer ≠ m.consumer) (tag : Tag)
      (timer : Timer) : Bind s (s.setChan c (.offered m tag timer))
  /-- An offered channel opens (R46). -/
  | accept {s : State} {c : ChanIx} {m : ChanParams} {tag : Tag} {timer : Timer} (hc : s.chan c = .offered m tag timer) :
      Bind s (s.setChan c (.active (Active.opened m)))

/-- A chain of moves of an event that drains channel `k`. -/
def Path (k : Option ChanIx) : State → State → Prop := Relation.ReflTransGen (Move k)

/-- A chain of moves at whose end the channel it drains is settled. -/
def Episode (s t : State) : Prop := ∃ k, Path k s t ∧ ∀ c, k = some c → t.settled c

/-- A chain of episodes. -/
def Calm : State → State → Prop := Relation.ReflTransGen Episode

/-- What a command does within traffic, waits and records: episodes, at most one of which begins with a buffer moved to a
new life, or a channel bound or opened. -/
inductive Run : State → State → Prop
  | calm {s t : State} (h : Calm s t) : Run s t
  | shift {k : Option ChanIx} {s t u : State} (h : Shift k s t) (hp : Path k t u) (hd : u.descs = t.descs)
      (hk : ∀ c, k = some c → u.settled c) : Run s u
  | bind {s t u : State} (h : Bind s t) (ht : t.tells u) : Run s u

/-! ### Chains -/

theorem Path.one {k : Option ChanIx} {s t : State} (h : Move k s t) : Path k s t := Relation.ReflTransGen.single h

theorem Path.refl {k : Option ChanIx} {s : State} : Path k s s := Relation.ReflTransGen.refl

theorem Path.trans {k : Option ChanIx} {s t u : State} (h : Path k s t) (g : Path k t u) : Path k s u :=
  Relation.ReflTransGen.trans h g

theorem Path.ofTells {k : Option ChanIx} {s t : State} (h : s.tells t) : Path k s t := Path.one (.tells h)

theorem Path.calm {s t : State} (h : Path none s t) : Calm s t :=
  Relation.ReflTransGen.single ⟨none, h, fun _ hc => nomatch hc⟩

theorem Path.calmAt {c : ChanIx} {s t : State} (h : Path (some c) s t) (hs : t.settled c) : Calm s t :=
  Relation.ReflTransGen.single ⟨some c, h, fun _ hc => Option.some.inj hc ▸ hs⟩

theorem Run.refl (s : State) : Run s s := .calm Relation.ReflTransGen.refl

theorem Run.ofPath {s t : State} (h : Path none s t) : Run s t := .calm h.calm

theorem Run.ofTells {s t : State} (h : s.tells t) : Run s t := .ofPath (.ofTells h)

theorem Calm.foldl {α : Type} {f : State → α → State} (hf : ∀ (s : State) (x : α), Calm s (f s x)) (l : List α)
    (s : State) : Calm s (l.foldl f s) := by
  induction l generalizing s with
  | nil => exact Relation.ReflTransGen.refl
  | cons x rest ih => exact (hf s x).trans (ih _)

/-- A property of the state that every move keeps is kept along a chain. -/
theorem Path.keeps {P : State → Prop} {k : Option ChanIx} (hm : ∀ s t, Move k s t → P s → P t) {s t : State}
    (h : Path k s t) (hs : P s) : P t := by
  induction h with
  | refl => exact hs
  | tail _ hmove ih => exact hm _ _ hmove ih

theorem Calm.keeps {P : State → Prop} (hm : ∀ k s t, Move k s t → P s → P t) {s t : State} (h : Calm s t) (hs : P s) :
    P t := by
  induction h with
  | refl => exact hs
  | tail _ he ih => exact he.choose_spec.1.keeps (hm _) ih

/-- A property that every move, every buffer moved to a new life and every binding keeps is kept by a run. -/
theorem Run.keeps {P : State → Prop} (hm : ∀ k s t, Move k s t → P s → P t) (hs : ∀ k s t, Shift k s t → P s → P t)
    (hb : ∀ s t, Bind s t → P s → P t) {s t : State} (h : Run s t) (h0 : P s) : P t := by
  cases h with
  | calm h => exact h.keeps hm h0
  | shift h hp _ _ => exact hp.keeps (hm _) (hs _ _ _ h h0)
  | bind h ht => exact hm none _ _ (.tells ht) (hb _ _ h h0)

/-- A relation of two states that is reflexive, transitive and holds of every move holds along a chain. -/
theorem Path.relates {R : State → State → Prop} (hr : ∀ s, R s s) (ht : ∀ s t u, R s t → R t u → R s u)
    {k : Option ChanIx} (hm : ∀ s t, Move k s t → R s t) {s t : State} (h : Path k s t) : R s t := by
  induction h with
  | refl => exact hr _
  | tail _ hmove ih => exact ht _ _ _ ih (hm _ _ hmove)

theorem Calm.relates {R : State → State → Prop} (hr : ∀ s, R s s) (ht : ∀ s t u, R s t → R t u → R s u)
    (hm : ∀ k s t, Move k s t → R s t) {s t : State} (h : Calm s t) : R s t := by
  induction h with
  | refl => exact hr _
  | tail _ he ih => exact ht _ _ _ ih (he.choose_spec.1.relates hr ht (hm _))

theorem Run.relates {R : State → State → Prop} (hr : ∀ s, R s s) (ht : ∀ s t u, R s t → R t u → R s u)
    (hm : ∀ k s t, Move k s t → R s t) (hs : ∀ k s t, Shift k s t → R s t) (hb : ∀ s t, Bind s t → R s t) {s t : State}
    (h : Run s t) : R s t := by
  cases h with
  | calm h => exact h.relates hr ht hm
  | shift h hp _ _ => exact ht _ _ _ (hs _ _ _ h) (hp.relates hr ht (hm _))
  | bind h htell => exact ht _ _ _ (hb _ _ h) (hm none _ _ (.tells htell))

/-! ### Updates of different records commute -/

theorem State.setChan_setChan (s : State) (c : ChanIx) (x y : Chan) : (s.setChan c x).setChan c y = s.setChan c y := by
  simp [State.setChan]

theorem State.setChan_self {s : State} {c : ChanIx} {x : Chan} (h : s.chan c = x) : s.setChan c x = s := by
  subst h
  simp [State.setChan, State.chan]

theorem State.complete_setChan (s : State) (c : ChanIx) (x : Chan) (p : Port) (tag : Tag) (r : ResultCode) (v : Vals) :
    (s.setChan c x).complete p tag r v = (s.complete p tag r v).setChan c x := by
  cases h : (s.hpi p).table.find? (fun e => e.req.tag == tag) with
  | none => rw [State.complete_of_not_find s _ _ _ _ h, State.complete_of_not_find (s.setChan c x) _ _ _ _ h]
  | some e => rw [State.complete_of_find s _ _ _ _ h, State.complete_of_find (s.setChan c x) _ _ _ _ h]; rfl

theorem State.completeAll_setChan (s : State) (c : ChanIx) (x : Chan) (p : Port) (ws : List Wait) (r : ResultCode)
    (v : Vals) : (s.setChan c x).completeAll p ws r v = (s.completeAll p ws r v).setChan c x := by
  induction ws generalizing s with
  | nil => rfl
  | cons w rest ih =>
    change ((s.setChan c x).complete p w.tag r v).completeAll p rest r v = _
    rw [State.complete_setChan, ih]
    rfl

theorem State.freeDesc_setChan (s : State) (c : ChanIx) (x : Chan) (i : DescIx) :
    (s.setChan c x).freeDesc i = (s.freeDesc i).setChan c x := by
  have hall : ∀ (bs : List BlockIx) (s : State),
      bs.foldl State.handOver (s.setChan c x) = (bs.foldl State.handOver s).setChan c x := by
    intro bs
    induction bs with
    | nil => exact fun _ => rfl
    | cons b rest ih =>
      intro s
      have hone : (s.setChan c x).handOver b = (s.handOver b).setChan c x := by
        unfold State.handOver
        rw [State.block_setChan]
        split_ifs <;> rfl
      rw [List.foldl_cons, hone, ih, List.foldl_cons]
  unfold State.freeDesc
  rw [State.desc_setChan]
  split
  · rfl
  · rw [hall]
    rfl

/-! ### What the settled channel is -/

theorem State.tells.inTransit {s t : State} (h : s.tells t) (c : ChanIx) : t.inTransit c = s.inTransit c := by
  simp only [State.inTransit, State.forwardCount, State.returnCount, State.heldCount, h.chan, h.descs]

theorem State.settled_of_tells {s t : State} (h : s.tells t) {c : ChanIx} (hs : s.settled c) : t.settled c := by
  rw [State.settled, h.chan, h.inTransit]
  exact hs

theorem State.settled_of_not_active {s : State} {c : ChanIx} (h : (s.chan c).active? = none) : s.settled c := by
  intro hs
  cases hc : s.chan c <;> simp_all [Chan.state, Chan.active?]

theorem Chan.active?_eq_some {x : Chan} {a : Active} : x.active? = some a ↔ x = .active a := by
  cases x <;> simp [Chan.active?]

theorem Chan.active_of_closing {x : Chan} (h : x.state = .closing) : ∃ a, x = .active a := by
  cases x <;> simp_all [Chan.state]

/-! ### The channel operations as chains of moves -/

section
variable {s : State} {c : ChanIx} {a : Active}

theorem path_freeForward {l : List DescIx} (hc : s.chan c = .active a) (hf : a.forward = l) :
    Path (some c) s (l.foldl State.freeDesc (s.setChan c (.active { a with forward := [] }))) := by
  induction l generalizing s a with
  | nil =>
    rw [List.foldl_nil, State.setChan_self (hc.trans (by rw [← hf]))]
    exact .refl
  | cons i rest ih =>
    refine (Path.one (.freeForward hc hf rfl)).trans ?_
    rw [List.foldl_cons, State.freeDesc_setChan, State.freeDesc_setChan]
    have := ih (s := (s.freeDesc i).setChan c (.active { a with forward := rest })) (a := { a with forward := rest })
      (State.chan_setChan_same ..) rfl
    rwa [State.setChan_setChan] at this

theorem path_freeReturns {l : List DescIx} (hc : s.chan c = .active a) (hf : a.returns = l) :
    Path (some c) s (l.foldl State.freeDesc (s.setChan c (.active { a with returns := [] }))) := by
  induction l generalizing s a with
  | nil =>
    rw [List.foldl_nil, State.setChan_self (hc.trans (by rw [← hf]))]
    exact .refl
  | cons i rest ih =>
    refine (Path.one (.freeReturn hc hf rfl)).trans ?_
    rw [List.foldl_cons, State.freeDesc_setChan, State.freeDesc_setChan]
    have := ih (s := (s.freeDesc i).setChan c (.active { a with returns := rest })) (a := { a with returns := rest })
      (State.chan_setChan_same ..) rfl
    rwa [State.setChan_setChan] at this

/-- The three things an arrival at an active channel can be: for a waiting COLLECT, or for the return queue (R73). -/
theorem State.arrive_collected {i : DescIx} {b : Buf} {t : Traffic} {r : Came} {w : Wait} {ws : List Wait}
    (hc : s.chan c = .active a) (hw : a.collectWaits = w :: ws) :
    s.arrive c i b t r = ((s.setChan c (.active { a with collectWaits := ws })).setLife i (.collected b t r)).complete
      a.params.producer w.tag .done (s.collectVals i b t r) := by
  simp only [State.arrive, hc, Chan.active?, hw]

theorem State.arrive_returned {i : DescIx} {b : Buf} {t : Traffic} {r : Came} (hc : s.chan c = .active a)
    (hw : a.collectWaits = []) :
    s.arrive c i b t r =
      (s.setChan c (.active { a with returns := a.returns ++ [i] })).setLife i (.returning b t r) := by
  simp only [State.arrive, hc, Chan.active?, hw]

theorem State.arrive_inactive {i : DescIx} {b : Buf} {t : Traffic} {r : Came} (hc : (s.chan c).active? = none) :
    s.arrive c i b t r = s := by
  simp only [State.arrive, hc]

theorem State.bounceOne_queued {i : DescIx} {b : Buf} {t : Traffic} (hl : (s.desc i).life = .queued b t) :
    State.bounceOne c s i = s.arrive c i b t ⟨.undelivered, none⟩ := by
  simp only [State.bounceOne, hl]

theorem Desc.state_eq_queued_iff (d : Desc) : d.state = .queued ↔ ∃ b t, d.life = .queued b t := by
  cases h : d.life <;> simp [Desc.state, h]

theorem State.bounceOne_stray {i : DescIx} (hl : (s.desc i).state ≠ .queued) : State.bounceOne c s i = s := by
  cases h : (s.desc i).life <;> simp_all [State.bounceOne, Desc.state]

theorem path_bounce {l : List DescIx} (hc : s.chan c = .active a) (hf : a.forward = l)
    (ho : s.online a.params.producer = true) :
    Path (some c) s (l.foldl (State.bounceOne c) (s.setChan c (.active { a with forward := [] }))) := by
  induction l generalizing s a with
  | nil =>
    rw [List.foldl_nil, State.setChan_self (hc.trans (by rw [← hf]))]
    exact .refl
  | cons i rest ih =>
    rw [List.foldl_cons]
    by_cases hq : (s.desc i).state = .queued
    · obtain ⟨b, t, hl⟩ := (Desc.state_eq_queued_iff _).1 hq
      rw [State.bounceOne_queued (by rw [State.desc_setChan, hl])]
      by_cases hw : a.collectWaits = []
      · rw [State.arrive_returned (a := { a with forward := [] }) (State.chan_setChan_same ..) hw, State.setChan_setChan]
        refine (Path.one (.bounceReturn (r := ⟨.undelivered, none⟩) hc hf hl hw rfl)).trans ?_
        have := ih (s := (s.setChan c (.active { a with forward := rest, returns := a.returns ++ [i] })).setLife i
          (.returning b t ⟨.undelivered, none⟩)) (a := { a with forward := rest, returns := a.returns ++ [i] })
          (State.chan_setChan_same ..) rfl ho
        rwa [show ((s.setChan c (.active { a with forward := rest, returns := a.returns ++ [i] })).setLife i
          (.returning b t ⟨.undelivered, none⟩)).setChan c (.active { a with forward := [], returns := a.returns ++ [i] }) =
            ((s.setChan c (.active { a with forward := rest, returns := a.returns ++ [i] })).setChan c
              (.active { a with forward := [], returns := a.returns ++ [i] })).setLife i
                (.returning b t ⟨.undelivered, none⟩) from rfl, State.setChan_setChan] at this
      · obtain ⟨w, ws, hw⟩ := List.exists_cons_of_ne_nil hw
        rw [State.arrive_collected (a := { a with forward := [] }) (State.chan_setChan_same ..) hw, State.setChan_setChan]
        refine (Path.one (.bounceCollect (r := ⟨.undelivered, none⟩) hc hf hl hw ho rfl)).trans ?_
        have htell := State.complete_tells ((s.setChan c (.active { a with forward := rest, collectWaits := ws })).setLife i
          (.collected b t ⟨.undelivered, none⟩)) a.params.producer w.tag .done (s.collectVals i b t ⟨.undelivered, none⟩)
        refine (Path.ofTells htell).trans ?_
        have := ih (a := { a with forward := rest, collectWaits := ws })
          ((htell.chan c).trans (State.chan_setChan_same ..)) rfl ((htell.online _).trans ho)
        rw [← State.complete_setChan] at this
        rwa [show ((s.setChan c (.active { a with forward := rest, collectWaits := ws })).setLife i
          (.collected b t ⟨.undelivered, none⟩)).setChan c (.active { a with forward := [], collectWaits := ws }) =
            ((s.setChan c (.active { a with forward := rest, collectWaits := ws })).setChan c
              (.active { a with forward := [], collectWaits := ws })).setLife i
                (.collected b t ⟨.undelivered, none⟩) from rfl, State.setChan_setChan] at this
    · rw [State.bounceOne_stray (by rwa [State.desc_setChan])]
      refine (Path.one (.dropStray hc hf hq rfl)).trans ?_
      have := ih (s := s.setChan c (.active { a with forward := rest })) (a := { a with forward := rest })
        (State.chan_setChan_same ..) rfl ho
      rwa [State.setChan_setChan] at this

theorem path_unbind {k : Option ChanIx} (h0 : s.inTransit c = 0) : Path k s (s.unbind c) := by
  unfold State.unbind
  split
  · exact .refl
  · rename_i a ha
    have hc := Chan.active?_eq_some.1 ha
    have htell := s.completeAll_tells a.params.producer a.collectWaits .closed { channel := chanField c }
    refine (Path.ofTells htell).trans ((Path.one (.unbind ((htell.chan c).trans hc) ((htell.inTransit c).trans h0))).trans ?_)
    exact (Path.ofTells (State.notice_tells ..)).trans (Path.ofTells (State.notice_tells ..))

theorem State.unbind_settled : (s.unbind c).settled c := by
  cases h : (s.chan c).active? with
  | none =>
    rw [show s.unbind c = s by simp only [State.unbind, h]]
    exact State.settled_of_not_active h
  | some a =>
    refine State.settled_of_not_active ?_
    rw [s.unbind_chan c c (by simp [h]), if_pos rfl]
    rfl

theorem path_unbindIfDrained {k : Option ChanIx} : Path k s (s.unbindIfDrained c) := by
  unfold State.unbindIfDrained
  split_ifs with h
  · rw [Bool.and_eq_true, beq_iff_eq, beq_iff_eq] at h
    exact path_unbind h.2
  · exact .refl

theorem State.unbindIfDrained_settled : (s.unbindIfDrained c).settled c := by
  unfold State.unbindIfDrained
  split_ifs with h
  · exact State.unbind_settled
  · rw [Bool.and_eq_true, beq_iff_eq, beq_iff_eq] at h
    exact fun hs => Nat.pos_of_ne_zero fun h0 => h ⟨hs, h0⟩

theorem path_closeBy (p : Port) : Path (some c) s (s.closeBy p c) := by
  unfold State.closeBy
  split
  · exact .refl
  · rename_i a ha
    have hc := Chan.active?_eq_some.1 ha
    split_ifs with hp
    · simp only [State.producerClose, State.chan_setChan_same, Chan.active?, State.setChan_setChan]
      refine (Path.one (Move.close (x := true) (y := a.closedConsumer) hc (fun _ => rfl) id (.inl rfl) rfl)).trans ?_
      exact .ofTells (State.completeAll_tells ..)
    · simp only [State.consumerClose, State.chan_setChan_same, Chan.active?, State.setChan_setChan]
      refine (Path.one (Move.close (x := a.closedProducer) (y := true) hc id (fun _ => rfl) (.inr rfl) rfl)).trans ?_
      have htell := State.completeAll_tells
        (s.setChan c (.active { a with closedProducer := a.closedProducer, closedConsumer := true, takeWaits := [] }))
        a.params.consumer a.takeWaits .closed { channel := chanField c }
      refine (Path.ofTells htell).trans ?_
      have hchan := (htell.chan c).trans (State.chan_setChan_same ..)
      rw [State.completeAll_setChan] at htell hchan ⊢
      rw [State.completeAll_setChan]
      have hon : s.online a.params.producer = ((s.completeAll a.params.consumer a.takeWaits .closed
          { channel := chanField c }).setChan c (.active { a with
            closedProducer := a.closedProducer, closedConsumer := true, takeWaits := [] })).online a.params.producer :=
        (htell.online _).symm
      have hfree := path_freeForward hchan rfl
      rw [State.setChan_setChan] at hfree
      split
      · split
        · exact hfree
        · exact hfree.trans (.ofTells (State.notice_tells ..))
      · split
        next ho =>
          have hbounce := path_bounce hchan rfl (hon ▸ ho)
          rw [State.setChan_setChan] at hbounce
          exact hbounce.trans (.ofTells (State.noticeReturns_tells ..))
        next => exact hfree

theorem path_freeReturnsOf : Path (some c) s (s.freeReturns c) := by
  unfold State.freeReturns
  split
  · exact .refl
  · rename_i a ha
    exact path_freeReturns (Chan.active?_eq_some.1 ha) rfl

end

/-! ### Reclaim -/

theorem calm_reclaimChannel (p : Port) (s : State) (c : ChanIx) : Calm s (State.reclaimChannel p s c) := by
  unfold State.reclaimChannel
  split
  next => exact Relation.ReflTransGen.refl
  next m tag timer hc =>
    split_ifs
    · exact ((Path.one (.unoffer hc)).trans (.ofTells (State.notice_tells ..))).calm
    · exact ((Path.one (.unoffer hc)).trans (.ofTells (State.complete_tells ..))).calm
    · exact Relation.ReflTransGen.refl
  next a hc =>
    split
    next =>
      extract_lets s1 s2
      have h1 : Path (some c) s s1 := by
        simp only [s1]
        split
        · exact .refl
        · exact path_closeBy p
      have h2 : Path (some c) s1 s2 := by
        simp only [s2]
        split
        · exact path_freeReturnsOf
        · exact .refl
      clear_value s1 s2
      split
      next h0 => exact Path.calmAt ((h1.trans h2).trans (path_unbind (by simpa using h0))) State.unbind_settled
      next h0 =>
        refine Path.calmAt ((h1.trans h2).trans (.ofTells (State.notice_tells ..))) ?_
        exact State.settled_of_tells (State.notice_tells ..) fun _ => Nat.pos_of_ne_zero (by simpa using h0)
    next => exact Relation.ReflTransGen.refl

theorem calm_reclaimStart {s : State} {p : Port} (ho : s.online p = true) : Calm s (s.reclaimStart p) :=
  (Path.one (.depart ho)).calm.trans (Calm.foldl (calm_reclaimChannel p) _ _)

end Sys2Proof.Machine

/-!
PROOFS. Every command as what it does: each request's settlement, each access of the window and each event inside the part is
a run of moves, but for the few events that `Effect` lists by name.
-/

namespace Sys2Proof.Machine

/-! ### Checks that pass -/

theorem firstFail_append_eq_none {l l' : List (Bool × ResultCode)} :
    firstFail (l ++ l') = none ↔ firstFail l = none ∧ firstFail l' = none := by
  simp only [firstFail_eq_none_iff, List.mem_append, or_imp, forall_and]

theorem State.handleChecks_passed {s : State} {p : Port} {w : Word} {bad : Bool} {accepts : List DescState}
    (h : firstFail (s.handleChecks p w bad accepts) = none) :
    (s.desc (handleIx w)).holder = some p ∧ (s.desc (handleIx w)).state ∈ accepts := by
  have hall := (firstFail_eq_none_iff _).1 h
  simp only [State.handleChecks, List.mem_cons, List.not_mem_nil, or_false, forall_eq_or_imp, forall_eq] at hall
  obtain ⟨_, _, hholder, hstate⟩ := hall
  exact ⟨by simpa using hholder, by simpa using hstate⟩

theorem Chan.producedBy_active {a : Active} {p : Port} : (Chan.active a).producedBy p = true ↔ a.params.producer = p := by
  simp [Chan.producedBy, Chan.params?]

theorem Chan.consumedBy_active {a : Active} {p : Port} : (Chan.active a).consumedBy p = true ↔ a.params.consumer = p := by
  simp [Chan.consumedBy, Chan.params?]

theorem Chan.state_eq_unbound_iff {x : Chan} : x.state = .unbound ↔ x = .unbound := by
  cases x with
  | active a => by_cases h : (a.closedProducer || a.closedConsumer) = true <;> simp [Chan.state, h]
  | _ => simp [Chan.state]

theorem Desc.life_of_filling {d : Desc} {b : Buf} {p : Port} (hb : d.buf = some b) (hs : d.state = .filling)
    (hh : d.holder = some p) : d.life = .filling b ∧ b.origin = p := by
  cases h : d.life <;> simp_all [Desc.buf, Desc.state, Desc.holder]

theorem Desc.heldOn_iff {d : Desc} {c : ChanIx} :
    d.heldOn c = true ↔ ∃ b t p x n, d.life = .held b t p x n ∧ t.channel = c := by
  cases h : d.life <;> simp [Desc.heldOn, Desc.state, Desc.traffic, h]

/-- The block at an offset within the extent is one of the descriptor's blocks (R5). -/
theorem Desc.blockAt_mem {d : Desc} {o : Nat} (h : o < d.extent) : d.blockAt o ∈ d.blockList := by
  have hlt : o / 256 < d.blockList.length := by
    simp only [Desc.extent, Desc.blockCount] at h
    omega
  rw [Desc.blockAt, List.getD_eq_getElem _ _ hlt]
  exact List.getElem_mem _

/-! ### Pool requests -/

section
variable {s : State} {p : Port} (r : Request)

theorem run_complete (tag : Tag) (code : ResultCode) (v : Vals) : Run s (s.complete p tag code v) :=
  .ofTells (s.complete_tells p tag code v)

theorem run_refuseOnChannel (code : ResultCode) : Run s (s.refuseOnChannel p r code) :=
  .ofTells (s.refuseOnChannel_tells p r code)

theorem run_settleAllocate (ho : s.online p = true) : Run s (settleAllocate r p s) := by
  unfold settleAllocate
  split
  next => exact run_complete ..
  next hchecks =>
    have hq : s.charged p + s.waitingDemand p + r.count.toNat ≤ s.quotas.get p := by
      rw [State.firstFail_allocChecks] at hchecks
      split_ifs at hchecks
      omega
    split
    next i _ hgive =>
      have hn : r.count.toNat ≤ s.freeList.length := by
        unfold State.canGive at hgive
        split_ifs at hgive
        assumption
      have hi : (s.desc i).state = .free := by
        rw [State.canGive, if_pos hn] at hgive
        exact (s.lowestFree_spec i hgive).1
      exact .shift (k := none) (.allocate ho hi hn hq) (.ofTells (State.complete_tells ..)) (State.complete_descs ..)
        (fun _ hc => nomatch hc)
    next hno =>
      split_ifs
      · exact run_complete ..
      · refine .ofPath ((Path.one (.joinAllocs (e := ⟨p, r.tag, r.count.toNat, waitTimer r.limit⟩) ho hq fun hw => ?_)).trans
          (.ofTells (State.leaveOutstanding_tells ..)))
        exact Option.eq_none_iff_forall_ne_some.2 fun i hg => hno i hw hg

theorem run_settleFree : Run s (settleFree r p s) := by
  unfold settleFree
  split
  next => exact run_complete ..
  next hchecks =>
    obtain ⟨_, hstate⟩ := State.handleChecks_passed hchecks
    refine .ofPath ((Path.one (.free ?_ ?_ ?_)).trans (.ofTells (State.complete_tells ..)))
    · rintro h
      simp [h] at hstate
    · rintro h
      simp [h] at hstate
    · intro c h
      rw [Desc.heldOn, Bool.and_eq_true, beq_iff_eq] at h
      simp [h.1] at hstate

theorem run_settleRetest : Run s (settleRetest r p s) := by
  unfold settleRetest
  split
  next => exact run_complete ..
  next => exact run_complete ..
  next h hr =>
    exact .ofPath ((Path.one (.startRetest _ h hr)).trans (.ofTells (State.leaveOutstanding_tells ..)))

/-! ### Channel requests -/

theorem run_settleOffer : Run s (settleOffer r p s) := by
  unfold settleOffer
  split
  next k q hchecks _ hq =>
    simp only [State.offerChecks, firstFail_eq_none_iff, List.mem_cons, List.not_mem_nil, or_false, forall_eq_or_imp,
      forall_eq, hq] at hchecks
    obtain ⟨_, hqp, hunbound, _⟩ := hchecks
    refine .bind (.offer (m := ⟨k, p, q, r.count.toNat, r.length.toNat, r.slot.toNat⟩) ?_ ?_ r.tag _)
      ((State.notice_tells ..).trans (State.leaveOutstanding_tells ..))
    · rw [← Chan.state_eq_unbound_iff]
      simpa using hunbound
    · intro h
      rw [show q = p from h.symm] at hqp
      simp at hqp
  next => exact run_refuseOnChannel ..
  next => exact run_refuseOnChannel ..

theorem run_settleWithdraw : Run s (settleWithdraw r p s) := by
  unfold settleWithdraw
  split_ifs
  · exact run_complete ..
  · split
    next hc =>
      split_ifs
      · exact .ofPath ((Path.one (.unoffer hc)).trans (.ofTells
          (((State.complete_tells ..).trans (State.complete_tells ..)).trans (State.notice_tells ..))))
      · exact run_complete ..
    all_goals exact run_complete ..

theorem run_settleAccept : Run s (settleAccept r p s) := by
  unfold settleAccept
  split_ifs
  · exact run_complete ..
  · split
    next hc =>
      split_ifs
      · exact .bind (.accept hc) ((State.complete_tells ..).trans (State.complete_tells ..))
      · exact run_complete ..
    all_goals exact run_complete ..

theorem run_settleReject : Run s (settleReject r p s) := by
  unfold settleReject
  split_ifs
  · exact run_complete ..
  · split
    next hc =>
      split_ifs
      · exact .ofPath ((Path.one (.unoffer hc)).trans (.ofTells
          ((State.complete_tells ..).trans (State.complete_tells ..))))
      · exact run_complete ..
    all_goals exact run_complete ..

theorem run_settleClose : Run s (settleClose r p s) := by
  unfold settleClose
  dsimp only
  split
  next => exact run_complete ..
  next => exact run_complete ..
  next a _ _ =>
    split
    next => exact run_complete ..
    next =>
      have hclose : Path (some r.chan) s (s.closeBy p r.chan) := path_closeBy p
      have htell := State.complete_tells (s.closeBy p r.chan) p r.tag .done
        { channel := chanField r.chan, v0 := word (a.bounced p),
          v1 := field 0 1 (flag ((s.closeBy p r.chan).inTransit r.chan == 0)) }
      split
      next h0 =>
        exact .calm (((hclose.trans (.ofTells htell)).trans
          (path_unbind (by rw [htell.inTransit]; simpa using h0))).calmAt State.unbind_settled)
      next h0 =>
        refine .calm (((hclose.trans (.ofTells htell)).trans (.ofTells (State.notice_tells ..))).calmAt ?_)
        exact State.settled_of_tells (htell.trans (State.notice_tells ..))
          fun _ => Nat.pos_of_ne_zero (by simpa using h0)

/-! ### Traffic requests -/

theorem run_settlePost : Run s (settlePost r p s) := by
  unfold settlePost
  split
  next b a hchecks hb ha =>
    have hc := Chan.active?_eq_some.1 ha
    rw [State.postChecks, firstFail_append_eq_none] at hchecks
    obtain ⟨hhandle, hchan⟩ := hchecks
    obtain ⟨hholder, hstate⟩ := State.handleChecks_passed hhandle
    obtain ⟨hl, horigin⟩ := Desc.life_of_filling hb (by simpa using hstate) hholder
    simp only [firstFail_eq_none_iff, List.mem_cons, List.not_mem_nil, or_false, forall_eq_or_imp, forall_eq,
      Bool.not_eq_false', decide_eq_false_iff_not, not_le, bne_eq_false_iff_eq] at hchan
    obtain ⟨hprod, hopen, hdepth, _⟩ := hchan
    simp only [hc, Chan.producedBy_active] at hprod
    simp only [hc, Chan.params?, Option.elim_some] at hdepth
    unfold State.postBuffer
    dsimp only
    split
    next w ws hw =>
      exact .shift (k := none) (.postTaken hc hopen hdepth hl (horigin.trans hprod.symm) rfl hw _)
        (.ofTells ((State.complete_tells ..).trans (State.complete_tells ..))) (by simp [State.deliver])
        (fun _ hc => nomatch hc)
    next hw =>
      have hnotice : ∀ t : State, t.tells
          (if a.forward.isEmpty then t.notice a.params.consumer .arrival
            { channel := chanField r.chan, v0 := a.nextSequence } else t) := fun t => by
        split
        · exact t.notice_tells ..
        · exact t.tells_refl
      have htell := (hnotice ((s.setChan r.chan (.active { a with
        nextSequence := a.nextSequence + 1#16, forward := a.forward ++ [handleIx r.handle] })).setLife
          (handleIx r.handle) (.queued b (postedTraffic r a.nextSequence)))).trans
          (State.complete_tells _ p r.tag .done { channel := chanField r.chan, v0 := a.nextSequence })
      exact .shift (k := none) (.post hc hopen hdepth hl (horigin.trans hprod.symm) rfl rfl hw) (.ofTells htell) htell.descs
        (fun _ hc => nomatch hc)
  next => exact run_refuseOnChannel ..
  next => exact run_refuseOnChannel ..

theorem run_settleTake (ho : s.online p = true) : Run s (settleTake r p s) := by
  unfold settleTake
  split
  next => exact run_refuseOnChannel ..
  next => exact run_refuseOnChannel ..
  next a hchecks ha =>
    have hc := Chan.active?_eq_some.1 ha
    simp only [State.takeChecks, firstFail_eq_none_iff, List.mem_cons, List.not_mem_nil, or_false, forall_eq_or_imp,
      forall_eq, Bool.not_eq_false', hc, Chan.consumedBy_active, Chan.active?, Option.elim_some] at hchecks
    obtain ⟨_, hcons, hopen⟩ := hchecks
    split
    next hf =>
      unfold State.takeEmpty
      split_ifs with hclosed
      · exact run_complete ..
      · exact run_complete ..
      · exact .ofPath ((Path.one (.joinTakes hc hf (by simpa using hclosed) hopen (hcons ▸ ho))).trans
          (.ofTells (State.leaveOutstanding_tells ..)))
    next i rest hf =>
      split
      next b t hl =>
        exact .shift (k := none) (.take hc hf hl (hcons ▸ ho) _) (.ofTells (State.complete_tells ..))
          (State.complete_descs ..) (fun _ hc => nomatch hc)
      all_goals exact .refl s

theorem run_settleCollect (ho : s.online p = true) : Run s (settleCollect r p s) := by
  unfold settleCollect
  split
  next => exact run_refuseOnChannel ..
  next => exact run_refuseOnChannel ..
  next a hchecks ha =>
    have hc := Chan.active?_eq_some.1 ha
    simp only [State.collectChecks, firstFail_eq_none_iff, List.mem_cons, List.not_mem_nil, or_false, forall_eq_or_imp,
      forall_eq, Bool.not_eq_false', hc, Chan.producedBy_active] at hchecks
    obtain ⟨_, hprod, _⟩ := hchecks
    split
    next i rest hf =>
      unfold State.collectHead
      split
      next b t x hl =>
        exact .shift (k := some r.chan) (.collect hc hf hl (hprod ▸ ho) rfl)
          ((Path.ofTells (State.complete_tells ..)).trans path_unbindIfDrained) (by simp)
          (fun c hk => Option.some.inj hk ▸ State.unbindIfDrained_settled)
      all_goals exact .refl s
    next hf =>
      split_ifs
      · exact run_complete ..
      · exact .ofPath ((Path.one (.joinCollects hc hf (hprod ▸ ho))).trans
          (.ofTells (State.leaveOutstanding_tells ..)))

end

/-- A HELD buffer leaves its consumer, to be freed, and the event ends with the channel drained (R71, R77, R93). -/
theorem run_freeHeld {s : State} {i : DescIx} {b : Buf} {t : Traffic} {p : Port} {x : Option Timer} {n : Nat}
    (hl : (s.desc i).life = .held b t p x n) {f : State → State} (hf : ∀ u : State, u.tells (f u)) :
    Run s ((f (s.freeDesc i)).unbindIfDrained t.channel) := by
  refine .calm (((Path.one (.free ?_ ?_ fun c hc => ?_)).trans ((Path.ofTells (hf _)).trans
    path_unbindIfDrained)).calmAt State.unbindIfDrained_settled)
  · simp [Desc.state, hl]
  · simp [Desc.state, hl]
  · obtain ⟨_, _, _, _, _, hl', rfl⟩ := Desc.heldOn_iff.1 hc
    rw [hl] at hl'
    cases hl'
    rfl

theorem State.comesBack_active {s : State} {c : ChanIx} {a : Active} (hc : s.chan c = .active a) :
    s.comesBack c = true ↔ a.params.kind = .roundTrip ∧ s.online a.params.producer = true := by
  simp [State.comesBack, hc, Chan.isKind, Chan.params?]

/-- A HELD buffer leaves its consumer, to come back to its producer, and the event ends with the channel drained (R76,
R93). -/
theorem run_comeBack {s : State} {i : DescIx} {b : Buf} {t : Traffic} {p : Port} {x : Option Timer} {n : Nat}
    (hl : (s.desc i).life = .held b t p x n) (hback : s.comesBack t.channel = true) (r : Came) {f : State → State}
    (hf : ∀ u : State, u.tells (f u)) : Run s ((f (s.comeBack i b t r)).unbindIfDrained t.channel) := by
  unfold State.comeBack
  have htell : ∀ u : State, u.tells (f (u.noticeReturns t.channel (s.returnCount t.channel == 0))) := fun u =>
    (u.noticeReturns_tells ..).trans (hf _)
  have hend : ∀ u : State, Path (some t.channel) u
      ((f (u.noticeReturns t.channel (s.returnCount t.channel == 0))).unbindIfDrained t.channel) := fun u =>
    (Path.ofTells (htell u)).trans path_unbindIfDrained
  have hdescs : ∀ u : State, ((f (u.noticeReturns t.channel (s.returnCount t.channel == 0))).unbindIfDrained
      t.channel).descs = u.descs := fun u => by rw [State.unbindIfDrained_descs, (htell u).descs]
  have hsettled : ∀ (u : State) (c : ChanIx), some t.channel = some c → (u.unbindIfDrained t.channel).settled c :=
    fun u c hk => Option.some.inj hk ▸ State.unbindIfDrained_settled
  cases ha : (s.chan t.channel).active? with
  | none =>
    rw [State.arrive_inactive ha]
    exact .calm ((hend s).calmAt State.unbindIfDrained_settled)
  | some a =>
    have hc := Chan.active?_eq_some.1 ha
    by_cases hw : a.collectWaits = []
    · rw [State.arrive_returned hc hw]
      exact .shift (.comeReturn hl hc hw rfl r) (hend _) (hdescs _) (hsettled _)
    · obtain ⟨w, ws, hw⟩ := List.exists_cons_of_ne_nil hw
      rw [State.arrive_collected hc hw]
      exact .shift (.comeCollect hl hc ((State.comesBack_active hc).1 hback).2 hw rfl r)
        ((Path.ofTells (State.complete_tells ..)).trans (hend _)) ((hdescs _).trans (State.complete_descs ..)) (hsettled _)

theorem run_revoke (s : State) (i : DescIx) (byExpiry : Bool) : Run s (s.revoke i byExpiry) := by
  unfold State.revoke
  split
  next b t p x n hl =>
    dsimp only
    let f : State → State := fun u =>
      if byExpiry then u.notice p .revoked { channel := chanField t.channel, v0 := s.handle i, v1 := t.sequence } else u
    have hf : ∀ u : State, u.tells (f u) := fun u => by
      simp only [f]
      split
      · exact u.notice_tells ..
      · exact u.tells_refl
    by_cases hback : s.comesBack t.channel = true
    · simp only [if_pos hback]
      exact run_comeBack (f := f) hl hback _ hf
    · simp only [if_neg hback]
      exact run_freeHeld (f := f) hl hf
  all_goals exact .refl s

section
variable {s : State} {p : Port} (r : Request)

theorem run_settleRelease : Run s (settleRelease r p s) := by
  unfold settleRelease
  split
  next t hchecks ht =>
    rw [State.giveUpChecks, firstFail_append_eq_none] at hchecks
    obtain ⟨_, hstate⟩ := State.handleChecks_passed hchecks.1
    obtain ⟨b, q, x, n, hl⟩ : ∃ b q x n, (s.desc (handleIx r.handle)).life = .held b t q x n := by
      cases h : (s.desc (handleIx r.handle)).life <;> simp_all [Desc.state, Desc.traffic]
    exact run_freeHeld hl fun u => u.complete_tells ..
  next => exact run_complete ..
  next => exact run_complete ..

theorem run_settleReturn : Run s (settleReturn r p s) := by
  unfold settleReturn
  split
  next b t q x n _ hl =>
    unfold State.giveBack
    dsimp only
    split
    next => exact run_freeHeld hl fun u => u.complete_tells ..
    next hgone => exact run_comeBack hl (by simpa using hgone) _ fun u => u.complete_tells ..
  next => exact run_complete ..
  next => exact run_complete ..

theorem run_settleRenew : Run s (settleRenew r p s) := by
  unfold settleRenew
  dsimp only
  split
  next b t q timer used _ hl =>
    split
    next => exact run_complete ..
    next =>
      split_ifs
      · exact .ofPath ((Path.one (.renew hl _ _)).trans (.ofTells (State.complete_tells ..)))
      · unfold State.renewRefused
        split
        · exact run_complete ..
        · exact .ofTells (s.drawn_tells.trans (State.complete_tells ..))
        · exact run_complete ..
  next => exact run_complete ..
  next => exact run_complete ..

theorem run_settleRefill : Run s (settleRefill r p s) := by
  unfold settleRefill
  dsimp only
  split
  next b hchecks hb =>
    obtain ⟨_, hstate⟩ := State.handleChecks_passed hchecks
    obtain ⟨t, x, hl⟩ : ∃ t x, (s.desc (handleIx r.handle)).life = .collected b t x := by
      cases h : (s.desc (handleIx r.handle)).life <;> simp_all [Desc.state, Desc.buf]
    exact .shift (k := none) (.refill hl) (.ofTells (State.complete_tells ..)) (State.complete_descs ..)
      (fun _ hc => nomatch hc)
  next => exact run_complete ..
  next => exact run_complete ..

/-! ### Requests of the port's own HPI -/

theorem run_settleCancel : Run s (settleCancel r p s) := by
  have hdone : ∀ (u : State) (target : Tag) (v : Vals), u.tells (u.cancelDone p r target v) := fun u _ _ =>
    (u.complete_tells ..).trans (State.complete_tells ..)
  unfold settleCancel
  split
  next => exact run_complete ..
  next =>
    split
    next => exact run_complete ..
    next t _ =>
      dsimp only
      split
      next =>
        split
        · exact .ofPath ((Path.one (.dropAlloc p t.tag)).trans (.ofTells (hdone ..)))
        · exact run_complete ..
      next a _ ha =>
        split
        · exact .ofPath ((Path.one (Move.leaveWaits (cw := a.collectWaits) (Chan.active?_eq_some.1 ha)
            List.eraseP_sublist (List.Sublist.refl _))).trans (.ofTells (hdone ..)))
        · exact run_complete ..
      next a _ ha =>
        split
        · exact .ofPath ((Path.one (Move.leaveWaits (tw := a.takeWaits) (Chan.active?_eq_some.1 ha)
            (List.Sublist.refl _) List.eraseP_sublist)).trans (.ofTells (hdone ..)))
        · exact run_complete ..
      next => exact run_complete ..

theorem run_settleMap (ho : s.online p = true) : Run s (settleMap r p s) := by
  unfold settleMap
  dsimp only
  split
  · exact run_complete ..
  · exact .ofTells ((State.setSlot_tells ho ..).trans (State.complete_tells ..))

theorem run_settleUnmap (ho : s.online p = true) : Run s (settleUnmap r p s) := by
  unfold settleUnmap
  split
  · exact run_complete ..
  · split
    · exact run_complete ..
    · exact .ofTells ((State.setSlot_tells ho ..).trans (State.complete_tells ..))

end

/-! ### Events inside the part -/

theorem run_expireAlloc (s : State) (p : Port) (tag : Tag) : Run s (s.expireAlloc p tag) := by
  unfold State.expireAlloc
  split
  · exact .ofPath ((Path.one (.dropAlloc p tag)).trans (.ofTells (State.complete_tells ..)))
  · exact .refl s

theorem run_expireTake (s : State) (c : ChanIx) (tag : Tag) : Run s (s.expireTake c tag) := by
  unfold State.expireTake
  split
  next => exact .refl s
  next a ha =>
    split
    · exact .ofPath ((Path.one (Move.leaveWaits (cw := a.collectWaits) (Chan.active?_eq_some.1 ha)
        List.eraseP_sublist (List.Sublist.refl _))).trans (.ofTells (State.complete_tells ..)))
    · exact .refl s

theorem run_expireCollect (s : State) (c : ChanIx) (tag : Tag) : Run s (s.expireCollect c tag) := by
  unfold State.expireCollect
  split
  next => exact .refl s
  next a ha =>
    split
    · exact .ofPath ((Path.one (Move.leaveWaits (tw := a.takeWaits) (Chan.active?_eq_some.1 ha)
        (List.Sublist.refl _) List.eraseP_sublist)).trans (.ofTells (State.complete_tells ..)))
    · exact .refl s

theorem run_expireOffer (s : State) (c : ChanIx) : Run s (s.expireOffer c) := by
  unfold State.expireOffer
  split
  next hc =>
    exact .ofPath ((Path.one (.unoffer hc)).trans (.ofTells ((State.complete_tells ..).trans (State.notice_tells ..))))
  all_goals exact .refl s

theorem run_expireHold (s : State) (i : DescIx) : Run s (s.expireHold i) := by
  unfold State.expireHold
  split
  next => exact run_revoke s i true
  all_goals exact .refl s

theorem State.closeTest_tells (s : State) (b : BlockIx) (ds : List Disturbance) : s.tells (s.closeTest b ds) := by
  have hframe := closeTest_frame s b ds
  refine ⟨?_, fun q => ?_, fun ⟨hm, hu, hk⟩ => ?_⟩
  · rw [hframe]
    rfl
  · rw [hframe]
    exact (s.hpi q).told_refl
  · obtain ⟨hm', hu'⟩ := closeTest_keeps_form s b ds hm hu
    exact ⟨hm', hu', by rw [hframe]; exact hk⟩

theorem run_endTest (s : State) : Run s s.endTest := by
  unfold State.endTest
  split
  next => exact .refl s
  next x hx =>
    have htell := s.closeTest_tells x.block x.disturbed
    have hx' : (s.closeTest x.block x.disturbed).retest = some x := htell.retest.trans hx
    generalize s.closeTest x.block x.disturbed = u at htell hx'
    generalize s.blockTestPasses x.block x.disturbed = pass
    dsimp only
    split
    next n b rest hn hr =>
      exact .ofPath ((Path.ofTells htell).trans (Path.one (.endTest pass hx'
        (.inr ⟨n, b, _, by omega, by rw [hr]; rfl, rfl⟩))))
    next =>
      refine .ofPath ((Path.ofTells htell).trans ((Path.one (.endTest pass hx' (.inl rfl))).trans ?_))
      unfold State.endRetest
      split
      · exact .refl
      · exact .ofTells (State.complete_tells ..)

theorem run_walkAt (s : State) (p : Port) (i : DescIx) : Run s (s.walkAt p i) := by
  have hfree : (s.desc i).state ≠ .queued → (s.desc i).state ≠ .returning → (s.desc i).state ≠ .held →
      Run s (s.freeDesc i) := fun hq hr hh =>
    .ofPath (.one (.free hq hr fun c hc => absurd (by simp_all [Desc.heldOn]) hh))
  unfold State.walkAt
  split
  · split
    next => exact run_revoke s i false
    next h => exact hfree (by simp [h]) (by simp [h]) (by simp [h])
    next h => exact hfree (by simp [h]) (by simp [h]) (by simp [h])
    all_goals exact .refl s
  · exact .refl s

/-! ### Accesses -/

theorem path_markDamage {s : State} {p : Port} {i : DescIx} {o : Nat} (ho : o < (s.desc i).extent) (h : Word)
    (dir : Direction) : Path none s (s.markDamage p i h o dir) := by
  unfold State.markDamage
  dsimp only
  rw [State.setDamaged_eq, State.desc_setBlock]
  refine (Path.one (.damage (Desc.blockAt_mem ho))).trans ?_
  split
  · exact .refl
  · exact .ofTells (State.notice_tells ..)

theorem State.accessCheck_ok {s : State} {p : Port} {addr : BitVec 14} {dir : Direction} {i : DescIx}
    (h : s.accessCheck p addr dir = .ok i) : apertureOffset addr < (s.desc i).extent := by
  unfold State.accessCheck at h
  split at h
  · cases h
  · split_ifs at h with _ hext
    cases h
    omega

theorem path_serveWrite {s : State} {p : Port} {i : DescIx} {o : Nat} (ho : o < (s.desc i).extent) (x : BusWrite) :
    Path none s (s.serveWrite p i o x) := by
  by_cases hx : x.low = x.high
  · unfold State.serveWrite
    dsimp only
    split
    · exact .refl
    · exact .ofTells (State.storeWord_tells ..)
    all_goals simp_all
  · rw [s.serveWrite_byte p i o hx]
    refine Path.trans ?_ (.ofTells (State.storeWord_tells ..))
    split
    · exact path_markDamage ho _ _
    · exact .refl

theorem run_writeAperture (s : State) (p : Port) (addr : BitVec 14) (x : BusWrite) :
    Run s (s.writeAperture p addr x) := by
  unfold State.writeAperture
  split
  next h =>
    rw [Bool.and_eq_true] at h
    split
    next i hok => exact .ofPath (path_serveWrite (State.accessCheck_ok hok) x)
    next => exact .ofTells (State.refuseAccess_tells h.2 ..)
  next => exact .refl s

theorem run_busWrite (s : State) (p : Port) (addr : BitVec 15) (w : BusWrite) : Run s (s.busWrite p addr w) := by
  unfold State.busWrite
  split
  · exact .ofTells (State.writeStaging_tells ..)
  · exact run_writeAperture ..
  · exact .ofTells State.consumeHead_tells
  · exact .ofTells (State.writeEnable_tells w)
  · exact .ofTells State.clearFault_tells
  all_goals exact .refl s

/-- The read data and the tick latch of one port have changed: what a read of port `p` leaves behind it. -/
def State.shows (s t : State) (p : Port) : Prop :=
  ∃ w l, t = s.setHpi p { s.hpi p with dataOut := w, tickLatch := l }

theorem State.shows_driveData (s : State) (p : Port) (w : Word) : s.shows (s.driveData p w) p :=
  ⟨w, (s.hpi p).tickLatch, rfl⟩

theorem State.readTickLow_shows (s : State) (p : Port) : s.shows (s.readTickLow p) p := by
  unfold State.readTickLow
  split
  · exact ⟨_, _, rfl⟩
  · exact s.shows_driveData p _

theorem readAperture_run (s : State) (p : Port) (addr : BitVec 14) : ∃ u, Run s u ∧ u.shows (s.readAperture p addr) p := by
  unfold State.readAperture
  split
  next h =>
    rw [Bool.and_eq_true] at h
    split
    next i hok =>
      refine ⟨_, ?_, State.shows_driveData ..⟩
      split
      · exact .refl s
      · exact .ofTells (State.storeWord_tells ..)
      · exact .ofPath (path_markDamage (State.accessCheck_ok hok) _ _)
    next => exact ⟨_, .ofTells (State.refuseAccess_tells h.2 ..), State.shows_driveData ..⟩
  next => exact ⟨s, .refl s, s.shows_driveData p _⟩

/-- An ATTACH that is accepted of an OFFLINE port leaves it ONLINE with one record queued (R134). -/
theorem State.attachNow_eq (s : State) (p : Port) (r : Request) :
    s.attachNow p r = s.setHpi p { s.hpi p with
      state := .online
      table := []
      queue := (s.hpi p).queue ++
        [.completion .done r.tag r.kind { v0 := word (s.quotas.get p), v1 := word (s.charged p) } s.stamp] } := by
  unfold State.attachNow
  dsimp only
  rw [State.complete_of_find (e := ⟨r, .pending⟩) _ _ _ _ _ (by simp)]
  simp

theorem move_attachNow {k : Option ChanIx} {s : State} {p : Port} (hoff : (s.hpi p).state = .offline)
    (hd : s.device ≠ .initialising) (hin : (s.hpi p).resetIn = false) (r : Request) : Move k s (s.attachNow p r) := by
  rw [State.attachNow_eq]
  refine .attach hoff hd hin rfl rfl rfl fun ⟨_, _, hbare, _⟩ _ => ?_
  obtain ⟨htable, hqueue, hsum, _⟩ := hbare (by simp [hoff])
  refine ⟨⟨by simp [Hpi.outstanding], by simp [Hpi.outstanding, Hpi.occupied, hqueue], fun h => absurd rfl h,
    fun h => ?_⟩, by simp [Hpi.tagsDiffer]⟩
  exact absurd (hsum.symm.trans h) (by decide)

theorem submit_run (s : State) (p : Port) : ∃ u, Run s u ∧ u.shows (s.submit p) p := by
  unfold State.submit
  split
  next hb =>
    refine ⟨_, ?_, State.shows_driveData ..⟩
    split
    next k ha _ =>
      by_cases ho : s.online p = true
      · exact .ofTells (State.enter_tells ho ha k)
      · have hin : (s.hpi p).resetIn = false := by
          simp only [State.busTaken, Bool.and_eq_true, Bool.not_eq_true'] at hb
          exact hb.2
        unfold State.submitAnswer at ha
        dsimp only at ha
        split_ifs at ha with hd hrec _ _ _ _ _
        rw [State.enter]
        simp only [ho]
        refine .ofPath (.one (move_attachNow ?_ hd hin _))
        rw [State.online_iff] at ho
        simpa [ho] using hrec
    next => exact .refl s
  next => exact ⟨s, .refl s, s.shows_driveData p _⟩

/-! ### Every command -/

/-- The commands that leave a word in `dataOut` of port `p`. -/
def readsWord (c : Instr) (p : Port) : Prop :=
  c = .submission p ∨ c = .attach p ∨ c = .tickLowRead p ∨ ∃ a, c = .apertureRead p a

/-- What a command can do: a run, a run with a word read, or one of the events that move quota, the clock, the device state,
a reset level or a reclaim walk, or serve the allocation wait list. -/
inductive Effect : Instr → State → State → Prop
  | run {c : Instr} {s t : State} (h : Run s t) : Effect c s t
  | read {c : Instr} {s u t : State} {p : Port} (hc : readsWord c p) (h : Run s u) (ht : u.shows t p) : Effect c s t
  | grant {s t : State} {p q : Port} {k : Nat} (hqp : q ≠ p)
      (hq : k + (s.charged p + s.waitingDemand p) ≤ s.quotas.get p)
      (ht : State.tells { s with quotas := s.quotasMoved p q k } t) : Effect (.grant p) s t
  | reexamine {s : State} : Effect .poolReexamination s s.reexamine
  | tick {s : State} (h : s.resetIn = false) : Effect .tick s s.tickOnce
  | walk {s : State} {p : Port} {i : DescIx} (h : (s.hpi p).state = .reclaiming i) :
      Effect (.reclaimWalkStep p) s (s.walkStep p)
  | resetAssert {s t : State} {p : Port} (ho : s.online p = true)
      (h : Calm ((s.dropHoldings p).setHpi p { (s.dropHoldings p).hpi p with resetIn := true }) t) :
      Effect (.portResetAssert p) s t
  | assertOnly {s : State} {p : Port} (ho : s.online p = false) :
      Effect (.portResetAssert p) s (s.setHpi p { s.hpi p with resetIn := true })
  | resetRelease {s : State} {p : Port} : Effect (.portResetRelease p) s (s.setHpi p { s.hpi p with resetIn := false })
  | deviceReset {s : State} : Effect .deviceReset s s.deviceReset
  | memoryClear {s : State} (h : s.resetIn = true) : Effect .memoryClear s { s.zeroMemory with resetIn := false }
  | deviceReady {s : State} (h : s.resetIn = false) : Effect .deviceReady s { s with device := .ready }

theorem effect_present {c : Instr} {s : State} {k : ReqKind} {p : Port} {f : Request → Port → State → State}
    (hf : ∀ r, s.online p = true → Effect c s (f r p s)) : Effect c s (s.present k p f) := by
  obtain h | ⟨r, ho, _, _, h⟩ := s.present_cases k p f
  · rw [h]
    exact .run (.refl s)
  · rw [h]
    exact hf r ho

theorem effect_settleGrant {s : State} {p : Port} (r : Request) : Effect (.grant p) s (settleGrant r p s) := by
  unfold settleGrant
  split
  next q hchecks hq =>
    simp only [State.grantChecks, firstFail_eq_none_iff, List.mem_cons, List.not_mem_nil, or_false, forall_eq_or_imp,
      forall_eq, hq, decide_eq_false_iff_not, not_lt] at hchecks
    obtain ⟨_, hqp, hquota⟩ := hchecks
    exact .grant (by simpa using hqp) (by omega) ((State.notice_tells ..).trans (State.complete_tells ..))
  next => exact .run (run_complete ..)
  next => exact .run (run_complete ..)

/-- The level of a port reset input does not matter to what the port loses at its reclaim start. -/
theorem State.dropHoldings_setResetIn (s : State) (p : Port) (x : Bool) :
    (s.setHpi p { s.hpi p with resetIn := x }).dropHoldings p =
      (s.dropHoldings p).setHpi p { (s.dropHoldings p).hpi p with resetIn := x } := by
  have hhpi : (s.dropHoldings p).hpi p = { Hpi.reset with
      state := .reclaiming 0
      resetIn := (s.hpi p).resetIn
      tickLatch := (s.hpi p).tickLatch
      dataOut := (s.hpi p).dataOut } := by
    unfold State.dropHoldings
    dsimp only
    split <;> exact State.hpi_setHpi_same ..
  rw [hhpi]
  unfold State.dropHoldings
  simp only [State.hpi_setHpi_same, State.setHpi_allocWaits, State.setHpi_setHpi]
  split <;> simp [State.setHpi, State.callReexam]

/-- What each command does. -/
theorem exec_effect (c : Instr) (s : State) : ∃ t, exec c s = .next t ∧ Effect c s t := by
  have hrun {k : ReqKind} {p : Port} {f : Request → Port → State → State}
      (hf : ∀ r, s.online p = true → Run s (f r p s)) : Effect c s (s.present k p f) :=
    effect_present fun r ho => .run (hf r ho)
  cases c with
  | submission p =>
    obtain ⟨u, hu, ht⟩ := submit_run s p
    exact ⟨_, rfl, .read (.inl rfl) hu ht⟩
  | registerWrite p addr w => exact ⟨_, rfl, .run (run_busWrite s p addr w)⟩
  | consume p w => exact ⟨_, rfl, .run (.ofTells State.consumeHead_tells)⟩
  | attentionEnableWrite p w => exact ⟨_, rfl, .run (.ofTells (State.writeEnable_tells w))⟩
  | faultClear p w => exact ⟨_, rfl, .run (.ofTells State.clearFault_tells)⟩
  | tickLowRead p => exact ⟨_, rfl, .read (.inr (.inr (.inl rfl))) (.refl s) (s.readTickLow_shows p)⟩
  | apertureRead p addr =>
    obtain ⟨u, hu, ht⟩ := readAperture_run s p addr
    exact ⟨_, rfl, .read (.inr (.inr (.inr ⟨addr, rfl⟩))) hu ht⟩
  | apertureWrite p addr w => exact ⟨_, rfl, .run (run_writeAperture s p addr w)⟩
  | attach p =>
    refine ⟨_, rfl, ?_⟩
    split
    · split
      · obtain ⟨u, hu, ht⟩ := submit_run s p
        exact .read (.inr (.inl rfl)) hu ht
      · exact .run (.refl s)
    · exact hrun fun r _ => run_complete ..
  | detach p => exact ⟨_, rfl, hrun fun _ ho => .calm (calm_reclaimStart ho)⟩
  | cancel p => exact ⟨_, rfl, hrun fun r _ => run_settleCancel r⟩
  | allocate p => exact ⟨_, rfl, hrun fun r ho => run_settleAllocate r ho⟩
  | free p => exact ⟨_, rfl, hrun fun r _ => run_settleFree r⟩
  | refill p => exact ⟨_, rfl, hrun fun r _ => run_settleRefill r⟩
  | grant p => exact ⟨_, rfl, effect_present fun r _ => effect_settleGrant r⟩
  | retest p => exact ⟨_, rfl, hrun fun r _ => run_settleRetest r⟩
  | queryPool p => exact ⟨_, rfl, hrun fun r _ => run_complete ..⟩
  | offer p => exact ⟨_, rfl, hrun fun r _ => run_settleOffer r⟩
  | withdraw p => exact ⟨_, rfl, hrun fun r _ => run_settleWithdraw r⟩
  | accept p => exact ⟨_, rfl, hrun fun r _ => run_settleAccept r⟩
  | reject p => exact ⟨_, rfl, hrun fun r _ => run_settleReject r⟩
  | close p => exact ⟨_, rfl, hrun fun r _ => run_settleClose r⟩
  | queryChannel p =>
    refine ⟨_, rfl, hrun fun r _ => ?_⟩
    unfold settleQueryChannel
    split <;> exact run_complete ..
  | post p => exact ⟨_, rfl, hrun fun r _ => run_settlePost r⟩
  | take p => exact ⟨_, rfl, hrun fun r ho => run_settleTake r ho⟩
  | collect p => exact ⟨_, rfl, hrun fun r ho => run_settleCollect r ho⟩
  | release p => exact ⟨_, rfl, hrun fun r _ => run_settleRelease r⟩
  | returnBuffer p => exact ⟨_, rfl, hrun fun r _ => run_settleReturn r⟩
  | renew p => exact ⟨_, rfl, hrun fun r _ => run_settleRenew r⟩
  | mapSlot p => exact ⟨_, rfl, hrun fun r ho => run_settleMap r ho⟩
  | unmapSlot p => exact ⟨_, rfl, hrun fun r ho => run_settleUnmap r ho⟩
  | poolReexamination => exact ⟨_, rfl, .reexamine⟩
  | tick =>
    refine ⟨_, rfl, ?_⟩
    cases h : s.resetIn with
    | true =>
      rw [show s.tickOnce = s by simp [State.tickOnce, h]]
      exact .run (.refl s)
    | false => exact .tick h
  | allocationWaitExpiry p tag => exact ⟨_, rfl, .run (run_expireAlloc s p tag)⟩
  | takeWaitExpiry k tag => exact ⟨_, rfl, .run (run_expireTake s k tag)⟩
  | collectWaitExpiry k tag => exact ⟨_, rfl, .run (run_expireCollect s k tag)⟩
  | offerExpiry k => exact ⟨_, rfl, .run (run_expireOffer s k)⟩
  | holdExpiry i => exact ⟨_, rfl, .run (run_expireHold s i)⟩
  | blockTestEnd => exact ⟨_, rfl, .run (run_endTest s)⟩
  | reclaimWalkStep p =>
    refine ⟨_, rfl, ?_⟩
    cases h : (s.hpi p).state with
    | reclaiming i => exact .walk h
    | _ =>
      rw [show s.walkStep p = s by simp only [State.walkStep, h]]
      exact .run (.refl s)
  | portResetAssert p =>
    refine ⟨_, rfl, ?_⟩
    dsimp only
    split
    next ho =>
      refine .resetAssert ho ?_
      rw [← State.dropHoldings_setResetIn]
      exact Calm.foldl (calm_reclaimChannel p) _ _
    next ho => exact .assertOnly (by simpa using ho)
  | portResetRelease p => exact ⟨_, rfl, .resetRelease⟩
  | deviceReset => exact ⟨_, rfl, .deviceReset⟩
  | memoryClear =>
    refine ⟨_, rfl, ?_⟩
    split
    next h => exact .memoryClear h
    next => exact .run (.refl s)
  | deviceReady =>
    refine ⟨_, rfl, ?_⟩
    split
    next => exact .run (.refl s)
    next h => exact .deviceReady (by simpa using h)
  | storedBitUpset w flips cells level => exact ⟨_, rfl, .run (.ofPath (.one (.upset w flips cells level)))⟩

/-- What a command that answers `t` has done. -/
theorem effect_of_exec {c : Instr} {s t : State} (h : exec c s = .next t) : Effect c s t := by
  obtain ⟨u, hu, he⟩ := exec_effect c s
  obtain rfl : u = t := Host.Outcome.next.inj (hu.symm.trans h)
  exact he

end Sys2Proof.Machine

/-!
PROOFS. What every command keeps of the ports, the clock and the inputs: the law of a port's requests and records (R136, R137,
R154), what reset holds closed (R36, R37, R163), and the frame of the clock, the device state, the reset levels and the read
data. Moves say it of one HPI at a time; the few events that move one of these are looked at by name.
-/

namespace Sys2Proof.Machine

/-! ### One HPI -/

/-- What reset holds closed of one port: OFFLINE while the device is INITIALISING (R37), and not ONLINE while its reset input
is asserted (R163). -/
def Hpi.closedLaw (d : DeviceState) (h : Hpi) : Prop :=
  (d = .initialising → h.state = .offline) ∧ (h.resetIn = true → h.state ≠ .online)

/-- What a move makes of one HPI: the reset level and the read data stay, and the laws are kept. -/
structure Hpi.kept (d : DeviceState) (h h' : Hpi) : Prop where
  resetIn : h'.resetIn = h.resetIn
  dataOut : h'.dataOut = h.dataOut
  laws : h.law → h.tagsDiffer → h'.law ∧ h'.tagsDiffer
  closed : h.closedLaw d → h'.closedLaw d

theorem Hpi.kept_refl (d : DeviceState) (h : Hpi) : h.kept d h := ⟨rfl, rfl, fun hl ht => ⟨hl, ht⟩, id⟩

theorem Hpi.kept.trans {d : DeviceState} {h i j : Hpi} (a : h.kept d i) (b : i.kept d j) : h.kept d j :=
  ⟨b.resetIn.trans a.resetIn, b.dataOut.trans a.dataOut, fun hl ht =>
    have ⟨il, it⟩ := a.laws hl ht
    b.laws il it, b.closed ∘ a.closed⟩

theorem Hpi.told.kept {h h' : Hpi} (a : h.told h') (d : DeviceState) : h.kept d h' :=
  ⟨a.resetIn, a.dataOut, a.laws, fun hc => by rwa [Hpi.closedLaw, a.state, a.resetIn]⟩

theorem Hpi.bare_reset (x : PortState) (r : Bool) (l w : Word) :
    { Hpi.reset with state := x, resetIn := r, tickLatch := l, dataOut := w }.bare :=
  ⟨rfl, rfl, rfl, rfl, by simp [Hpi.reset], rfl⟩

/-- A bare HPI keeps the laws whatever its state. -/
theorem Hpi.law_of_bare {h : Hpi} (hb : h.bare) : h.law ∧ h.tagsDiffer := by
  obtain ⟨htable, hqueue, hsum, _⟩ := id hb
  refine ⟨⟨by simp [Hpi.outstanding, htable], by simp [Hpi.outstanding, Hpi.occupied, htable, hqueue], fun _ => hb,
    fun h => absurd (hsum.symm.trans h) (by decide)⟩, by simp [Hpi.tagsDiffer, htable]⟩

/-- The HPI of a port at its reclaim start (R164). -/
theorem State.dropHoldings_hpi (s : State) (p q : Port) : (s.dropHoldings p).hpi q =
    if p = q then { Hpi.reset with
      state := .reclaiming 0
      resetIn := (s.hpi p).resetIn
      tickLatch := (s.hpi p).tickLatch
      dataOut := (s.hpi p).dataOut } else s.hpi q := by
  unfold State.dropHoldings
  dsimp only
  split <;> exact State.hpi_setHpi ..

/-! ### What a move leaves of the clock and the inputs -/

/-- The records that only a few named events move: the reset level, the device state, the tick counter, the quotas and the
queue of commands. -/
def State.fixed (s : State) : Bool × DeviceState × BitVec 32 × PerPort Nat × List Instr :=
  (s.resetIn, s.device, s.ticks, s.quotas, s.pending)

theorem State.fixed_eq_iff {s t : State} : t.fixed = s.fixed ↔
    t.resetIn = s.resetIn ∧ t.device = s.device ∧ t.ticks = s.ticks ∧ t.quotas = s.quotas ∧ t.pending = s.pending := by
  simp [State.fixed]

/-- From `s` to `t` every HPI is kept, and so are the records that only named events move. -/
structure State.keepsPorts (s t : State) : Prop where
  fixed : t.fixed = s.fixed
  hpis : ∀ q, (s.hpi q).kept s.device (t.hpi q)

theorem State.keepsPorts_refl (s : State) : s.keepsPorts s := ⟨rfl, fun q => (s.hpi q).kept_refl _⟩

theorem State.keepsPorts.device {s t : State} (h : s.keepsPorts t) : t.device = s.device :=
  (State.fixed_eq_iff.1 h.fixed).2.1

theorem State.keepsPorts.trans {s t u : State} (a : s.keepsPorts t) (b : t.keepsPorts u) : s.keepsPorts u :=
  ⟨b.fixed.trans a.fixed, fun q => (a.hpis q).trans (a.device ▸ b.hpis q)⟩

theorem State.tells.keepsPorts {s t : State} (h : s.tells t) : s.keepsPorts t :=
  ⟨State.fixed_eq_iff.2 ⟨h.resetIn, h.device, h.ticks, h.quotas, h.pending⟩, fun q => (h.hpis q).kept _⟩

/-- Whatever leaves the ports alone. -/
theorem State.keepsPorts_of_ports {s t : State} (hf : t.fixed = s.fixed) (hp : t.ports = s.ports) : s.keepsPorts t :=
  ⟨hf, fun q => by rw [State.hpi_of_ports hp]; exact Hpi.kept_refl ..⟩

theorem State.keepsPorts_setHpi {s : State} {p : Port} {h : Hpi} (hk : (s.hpi p).kept s.device h) :
    s.keepsPorts (s.setHpi p h) := by
  refine ⟨rfl, fun q => ?_⟩
  rw [State.hpi_setHpi]
  split_ifs with hpq
  · exact hpq ▸ hk
  · exact Hpi.kept_refl ..

theorem State.freeDesc_keepsPorts (s : State) (i : DescIx) : s.keepsPorts (s.freeDesc i) := by
  obtain ⟨d, x, f, r, n, h⟩ := s.freeDesc_frame i
  exact State.keepsPorts_of_ports (by rw [h]; rfl) (by rw [h])

theorem State.keepsPorts_setChan (s : State) (c : ChanIx) (x : Chan) : s.keepsPorts (s.setChan c x) :=
  State.keepsPorts_of_ports rfl rfl

theorem State.keepsPorts_setLife (s : State) (i : DescIx) (l : Life) : s.keepsPorts (s.setLife i l) :=
  State.keepsPorts_of_ports rfl rfl

theorem State.dropHoldings_keepsPorts {s : State} {p : Port} (ho : s.online p = true) :
    s.keepsPorts (s.dropHoldings p) := by
  refine ⟨by unfold State.dropHoldings; dsimp only; split <;> rfl, fun q => ?_⟩
  rw [State.dropHoldings_hpi]
  split_ifs with hpq
  · subst hpq
    refine ⟨rfl, rfl, fun _ _ => Hpi.law_of_bare (Hpi.bare_reset ..), fun ⟨hd, _⟩ => ⟨fun hi => ?_, fun _ h => nomatch h⟩⟩
    exact absurd ((hd hi).symm.trans (State.online_iff.1 ho)) (by simp)
  · exact Hpi.kept_refl ..

theorem Move.keepsPorts {k : Option ChanIx} {s t : State} (h : Move k s t) : s.keepsPorts t := by
  cases h with
  | tells h => exact h.keepsPorts
  | free => exact s.freeDesc_keepsPorts _
  | freeForward => exact (s.keepsPorts_setChan ..).trans (State.freeDesc_keepsPorts ..)
  | freeReturn => exact (s.keepsPorts_setChan ..).trans (State.freeDesc_keepsPorts ..)
  | dropAlloc p tag =>
    unfold State.dropAllocWait
    dsimp only
    split <;> exact State.keepsPorts_of_ports rfl rfl
  | endTest pass => cases pass <;> exact State.keepsPorts_of_ports rfl rfl
  | upset w flips cells level =>
    have h := noteUpset_frame s w flips cells
    exact State.keepsPorts_of_ports (by rw [h]; rfl) (by rw [h]; rfl)
  | depart ho => exact State.dropHoldings_keepsPorts ho
  | attach hoff hd hin hs hr ho hl =>
    exact State.keepsPorts_setHpi ⟨hr, ho, hl, fun _ => ⟨fun h => absurd h hd, fun h => by simp_all⟩⟩
  | _ => exact State.keepsPorts_of_ports rfl rfl

theorem State.allocTo_keepsPorts (s : State) (p : Port) (n : Nat) (i : DescIx) : s.keepsPorts (s.allocTo p n i) := by
  obtain ⟨x, h⟩ := s.allocTo_frame p n i
  exact State.keepsPorts_of_ports (by rw [h]; rfl) (by rw [h]; rfl)

theorem Run.keepsPorts {s t : State} (h : Run s t) : s.keepsPorts t := by
  refine h.relates (R := State.keepsPorts) State.keepsPorts_refl (fun _ _ _ => State.keepsPorts.trans)
    (fun _ _ _ => Move.keepsPorts) (fun _ s t h => ?_) (fun s t h => ?_)
  · cases h with
    | allocate => exact s.allocTo_keepsPorts ..
    | _ => exact State.keepsPorts_of_ports rfl rfl
  · cases h <;> exact State.keepsPorts_of_ports rfl rfl

theorem Calm.keepsPorts {s t : State} (h : Calm s t) : s.keepsPorts t := Run.keepsPorts (.calm h)

/-! ### The wait list served -/

/-- What holds of a state and is kept by the taking of a re-examination and by each service of a head holds after the
re-examination (R28, R29). -/
theorem State.reexamine_keeps {P : State → Prop} {s : State} (hn : ∀ n, s.reexamsDue = n + 1 → P { s with reexamsDue := n })
    (he : ∀ (u : State) (e : AllocWait) (rest : List AllocWait) (i : DescIx), P u → u.allocWaits = e :: rest →
      u.canGive e.count = some i → P ({ u with allocWaits := rest }.satisfy e.port e.tag e.count i)) (h0 : P s) :
    P s.reexamine := by
  have hserve : ∀ (n : Nat) (u : State), P u → P (State.serveHeads n u) := by
    intro n
    induction n with
    | zero => exact fun _ hu => hu
    | succ n ih =>
      intro u hu
      unfold State.serveHeads
      split
      next => exact hu
      next e rest hw =>
        split
        next => exact hu
        next i hg => exact ih _ (he u e rest i hu hw hg)
  unfold State.reexamine
  split
  next => exact h0
  next n hdue => exact hserve _ _ (hn n hdue)

theorem State.reexamine_keepsPorts (s : State) : s.keepsPorts s.reexamine := by
  refine State.reexamine_keeps (P := s.keepsPorts) (fun _ _ => State.keepsPorts_of_ports rfl rfl)
    (fun u e rest i hu _ _ => hu.trans ?_) s.keepsPorts_refl
  refine State.keepsPorts.trans (t := { u with allocWaits := rest }) (State.keepsPorts_of_ports rfl rfl) ?_
  exact (State.allocTo_keepsPorts ..).trans (State.complete_tells ..).keepsPorts

theorem State.tickOnce_eq {s : State} (h : s.resetIn = false) : s.tickOnce = { s with
    ticks := s.ticks + 1#32
    allocWaits := s.allocWaits.map (fun e => { e with timer := e.timer.map Timer.count })
    chans := s.chans.map Chan.count
    descs := s.descs.map Desc.count } := by
  simp [State.tickOnce, h]

/-- One step of a reclaim walk: what it does at the descriptor it reaches, and the walk moved on (R168). -/
theorem State.walkStep_eq {s : State} {p : Port} {i : DescIx} (h : (s.hpi p).state = .reclaiming i) :
    s.walkStep p = (s.walkAt p i).setHpi p { (s.walkAt p i).hpi p with
      state := if h : i.val + 1 < 128 then .reclaiming ⟨i.val + 1, h⟩ else .offline } := by
  simp only [State.walkStep, h]

theorem State.walkAt_state (s : State) (p q : Port) (i : DescIx) : ((s.walkAt p i).hpi q).state = (s.hpi q).state :=
  congrArg Prod.fst (s.walkAt_controls i q p)

/-! ### The laws of the ports -/

theorem State.portLaws_iff {s : State} : s.portLaw ∧ s.tagLaw ↔ ∀ q, (s.hpi q).law ∧ (s.hpi q).tagsDiffer :=
  forall_and.symm

theorem State.keepsPorts.portLaws {s t : State} (h : s.keepsPorts t) (hs : s.portLaw ∧ s.tagLaw) :
    t.portLaw ∧ t.tagLaw := by
  rw [State.portLaws_iff] at hs ⊢
  exact fun q => (h.hpis q).laws (hs q).1 (hs q).2

theorem State.portLaws_setHpi {s : State} {p : Port} {h : Hpi} (hs : s.portLaw ∧ s.tagLaw) (hl : h.law ∧ h.tagsDiffer) :
    (s.setHpi p h).portLaw ∧ (s.setHpi p h).tagLaw := by
  rw [State.portLaws_iff] at hs ⊢
  intro q
  rw [State.hpi_setHpi]
  split_ifs
  · exact hl
  · exact hs q

/-- Settles O5: moves keep the laws port by port, and the other events write the reset level, the read data or the walk
alone. -/
theorem portLawKept : Obligations.PortLawKept := by
  intro c s t hport htag hexec
  have hs : s.portLaw ∧ s.tagLaw := ⟨hport, htag⟩
  cases effect_of_exec hexec with
  | run h => exact h.keepsPorts.portLaws hs
  | read _ h ht =>
    obtain ⟨w, l, rfl⟩ := ht
    have hu := h.keepsPorts.portLaws hs
    exact State.portLaws_setHpi hu (State.portLaws_iff.1 hu _)
  | grant _ _ ht =>
    exact ht.keepsPorts.portLaws (State.portLaws_iff.2 fun q => State.portLaws_iff.1 hs q)
  | reexamine => exact s.reexamine_keepsPorts.portLaws hs
  | tick h =>
    rw [State.tickOnce_eq h]
    exact State.portLaws_iff.2 fun q => State.portLaws_iff.1 hs q
  | @walk _ p i h =>
    have hu := (run_walkAt s p i).keepsPorts.portLaws hs
    obtain ⟨⟨h8, h32, hbare, hfull⟩, ht⟩ := State.portLaws_iff.1 hu p
    have hb := hbare (by rw [State.walkAt_state, h]; simp)
    rw [State.walkStep_eq h]
    exact State.portLaws_setHpi hu ⟨⟨h8, h32, fun _ => hb, hfull⟩, ht⟩
  | @resetAssert _ _ p ho h =>
    have hu := (State.dropHoldings_keepsPorts ho).portLaws hs
    exact h.keepsPorts.portLaws (State.portLaws_setHpi hu (State.portLaws_iff.1 hu p))
  | assertOnly => exact State.portLaws_setHpi hs (State.portLaws_iff.1 hs _)
  | resetRelease => exact State.portLaws_setHpi hs (State.portLaws_iff.1 hs _)
  | deviceReset =>
    refine State.portLaws_iff.2 fun q => ?_
    rw [State.hpi_deviceReset]
    exact Hpi.law_of_bare (Hpi.bare_reset ..)
  | memoryClear => exact State.portLaws_iff.2 fun q => State.portLaws_iff.1 hs q
  | deviceReady => exact State.portLaws_iff.2 fun q => State.portLaws_iff.1 hs q

/-! ### What reset holds closed -/

theorem State.resetLaw_iff {s : State} :
    s.resetLaw ↔ (s.resetIn = true → s.device = .initialising) ∧ ∀ q, (s.hpi q).closedLaw s.device := by
  simp only [State.resetLaw, Hpi.closedLaw, forall_and]
  exact and_congr_right fun _ => and_congr_left fun _ => ⟨fun h q hd => h hd q, fun h hd q => h q hd⟩

theorem State.keepsPorts.resetLaw {s t : State} (h : s.keepsPorts t) (hs : s.resetLaw) : t.resetLaw := by
  rw [State.resetLaw_iff] at hs ⊢
  obtain ⟨hr, hd, _⟩ := State.fixed_eq_iff.1 h.fixed
  rw [hr, hd]
  exact ⟨hs.1, fun q => (h.hpis q).closed (hs.2 q)⟩

/-- An update of one HPI, the device state and the reset level of the device as they were. -/
theorem State.resetLaw_setHpi {s : State} {p : Port} {h : Hpi} (hs : s.resetLaw)
    (hc : (s.hpi p).closedLaw s.device → h.closedLaw s.device) : (s.setHpi p h).resetLaw := by
  rw [State.resetLaw_iff] at hs ⊢
  refine ⟨hs.1, fun q => ?_⟩
  rw [State.hpi_setHpi]
  split_ifs
  · exact hc (hs.2 p)
  · exact hs.2 q

/-- Settles O13: moves keep what reset holds closed; a walk ends OFFLINE, a reset input is asserted on a port that is not
ONLINE, and the device becomes READY only while nRESET is released. -/
theorem resetLawKept : Obligations.ResetLawKept := by
  intro c s t hs hexec
  cases effect_of_exec hexec with
  | run h => exact h.keepsPorts.resetLaw hs
  | read _ h ht =>
    obtain ⟨w, l, rfl⟩ := ht
    exact State.resetLaw_setHpi (h.keepsPorts.resetLaw hs) id
  | grant _ _ ht => exact ht.keepsPorts.resetLaw hs
  | reexamine => exact s.reexamine_keepsPorts.resetLaw hs
  | tick h =>
    rw [State.tickOnce_eq h]
    exact hs
  | @walk _ p i h =>
    have hu := (run_walkAt s p i).keepsPorts.resetLaw hs
    rw [State.walkStep_eq h]
    refine State.resetLaw_setHpi hu fun ⟨hd, _⟩ => ⟨fun hi => ?_, fun _ => ?_⟩
    · have := hd hi
      rw [State.walkAt_state, h] at this
      exact absurd this (by simp)
    · dsimp only
      split <;> simp
  | @resetAssert _ _ p ho h =>
    refine h.keepsPorts.resetLaw (State.resetLaw_setHpi ((State.dropHoldings_keepsPorts ho).resetLaw hs)
      fun ⟨hd, _⟩ => ⟨hd, fun _ => ?_⟩)
    rw [State.dropHoldings_hpi, if_pos rfl]
    simp
  | assertOnly ho =>
    refine State.resetLaw_setHpi hs fun ⟨hd, _⟩ => ⟨hd, fun _ h => ?_⟩
    rw [State.online_iff.2 h] at ho
    exact absurd ho (by simp)
  | resetRelease => exact State.resetLaw_setHpi hs fun ⟨hd, _⟩ => ⟨hd, fun h => nomatch h⟩
  | deviceReset =>
    refine State.resetLaw_iff.2 ⟨fun _ => rfl, fun q => ?_⟩
    rw [State.hpi_deviceReset]
    exact ⟨fun _ => rfl, fun _ => by simp [Hpi.reset]⟩
  | memoryClear =>
    obtain ⟨_, hq⟩ := State.resetLaw_iff.1 hs
    exact State.resetLaw_iff.2 ⟨(nomatch ·), hq⟩
  | deviceReady h =>
    obtain ⟨_, hq⟩ := State.resetLaw_iff.1 hs
    exact State.resetLaw_iff.2 ⟨fun hr => absurd (h.symm.trans hr) (by decide), fun q => ⟨(nomatch ·), (hq q).2⟩⟩

/-! ### The frame of the clock and the inputs -/

/-- Settles O3: moves leave all of them alone, and each other event moves what it is named after. -/
theorem clockAndInputsMoveOnlyAtTheirEvents : Obligations.ClockAndInputsMoveOnlyAtTheirEvents := by
  intro c s t hexec
  have hports {u v : State} (h : u.keepsPorts v) : v.ticks = u.ticks ∧ v.device = u.device ∧ v.resetIn = u.resetIn ∧
      ∀ p, (v.hpi p).resetIn = (u.hpi p).resetIn ∧ (v.hpi p).dataOut = (u.hpi p).dataOut := by
    obtain ⟨hr, hd, ht, _⟩ := State.fixed_eq_iff.1 h.fixed
    exact ⟨ht, hd, hr, fun p => ⟨(h.hpis p).resetIn, (h.hpis p).dataOut⟩⟩
  have hframe (h : t.ticks = s.ticks ∧ t.device = s.device ∧ t.resetIn = s.resetIn ∧
      ∀ p, (t.hpi p).resetIn = (s.hpi p).resetIn ∧ (t.hpi p).dataOut = (s.hpi p).dataOut) :
      (c ≠ .tick → c ≠ .deviceReset → t.ticks = s.ticks) ∧
      (c ≠ .deviceReset → c ≠ .deviceReady → t.device = s.device) ∧
      (c ≠ .deviceReset → c ≠ .memoryClear → t.resetIn = s.resetIn) ∧
      ∀ p : Port,
        (c ≠ .portResetAssert p → c ≠ .portResetRelease p → (t.hpi p).resetIn = (s.hpi p).resetIn) ∧
          (c ≠ .submission p → c ≠ .attach p → c ≠ .tickLowRead p → (∀ a, c ≠ .apertureRead p a) → c ≠ .deviceReset →
            (t.hpi p).dataOut = (s.hpi p).dataOut) := by
    obtain ⟨ht, hd, hr, hp⟩ := h
    exact ⟨fun _ _ => ht, fun _ _ => hd, fun _ _ => hr, fun p => ⟨fun _ _ => (hp p).1, fun _ _ _ _ _ => (hp p).2⟩⟩
  cases effect_of_exec hexec with
  | run h => exact hframe (hports h.keepsPorts)
  | @read _ _ u _ p hc h hshow =>
    obtain ⟨w, l, rfl⟩ := hshow
    obtain ⟨ht, hd, hr, hp⟩ := hports h.keepsPorts
    refine ⟨fun _ _ => ht, fun _ _ => hd, fun _ _ => hr, fun q => ⟨fun _ _ => ?_, fun h1 h2 h3 h4 _ => ?_⟩⟩
    · rw [State.hpi_setHpi]
      split_ifs with hpq
      · exact hpq ▸ (hp p).1
      · exact (hp q).1
    · rw [State.hpi_setHpi, if_neg]
      · exact (hp q).2
      · rintro rfl
        obtain h | h | h | ⟨a, h⟩ := hc
        · exact h1 h
        · exact h2 h
        · exact h3 h
        · exact h4 a h
  | @grant _ _ p q k _ _ ht => exact hframe (hports (u := { s with quotas := s.quotasMoved p q k }) ht.keepsPorts)
  | reexamine => exact hframe (hports s.reexamine_keepsPorts)
  | tick h =>
    rw [State.tickOnce_eq h]
    exact ⟨fun h _ => absurd rfl h, fun _ _ => rfl, fun _ _ => rfl, fun p => ⟨fun _ _ => rfl, fun _ _ _ _ _ => rfl⟩⟩
  | @walk _ p i h =>
    refine hframe ?_
    rw [State.walkStep_eq h]
    obtain ⟨ht, hd, hr, hp⟩ := hports (run_walkAt s p i).keepsPorts
    refine ⟨ht, hd, hr, fun q => ?_⟩
    rw [State.hpi_setHpi]
    by_cases hpq : p = q
    · rw [if_pos hpq]
      exact hpq ▸ hp p
    · rw [if_neg hpq]
      exact hp q
  | @resetAssert _ _ p ho h =>
    obtain ⟨ht, hd, hr, hp⟩ := hports h.keepsPorts
    obtain ⟨ht', hd', hr', hp'⟩ := hports (State.dropHoldings_keepsPorts ho)
    refine ⟨fun _ _ => ht.trans ht', fun _ _ => hd.trans hd', fun _ _ => hr.trans hr', fun q =>
      ⟨fun hq _ => ?_, fun _ _ _ _ _ => ?_⟩⟩
    · rw [(hp q).1, State.hpi_setHpi, if_neg (by rintro rfl; exact hq rfl)]
      exact (hp' q).1
    · rw [(hp q).2, State.hpi_setHpi]
      split_ifs with hpq
      · exact hpq ▸ (hp' p).2
      · exact (hp' q).2
  | @assertOnly _ p _ =>
    refine ⟨fun _ _ => rfl, fun _ _ => rfl, fun _ _ => rfl, fun q => ⟨fun hq _ => ?_, fun _ _ _ _ _ => ?_⟩⟩
    · rw [State.hpi_setHpi, if_neg (by rintro rfl; exact hq rfl)]
    · rw [State.hpi_setHpi]
      split_ifs with hpq
      · rw [hpq]
      · rfl
  | @resetRelease _ p =>
    refine ⟨fun _ _ => rfl, fun _ _ => rfl, fun _ _ => rfl, fun q => ⟨fun _ hq => ?_, fun _ _ _ _ _ => ?_⟩⟩
    · rw [State.hpi_setHpi, if_neg (by rintro rfl; exact hq rfl)]
    · rw [State.hpi_setHpi]
      split_ifs with hpq
      · rw [hpq]
      · rfl
  | deviceReset =>
    refine ⟨fun _ h => absurd rfl h, fun h _ => absurd rfl h, fun h _ => absurd rfl h, fun q =>
      ⟨fun _ _ => by rw [State.hpi_deviceReset], fun _ _ _ _ h => absurd rfl h⟩⟩
  | memoryClear =>
    exact ⟨fun _ _ => rfl, fun _ _ => rfl, fun _ h => absurd rfl h, fun p => ⟨fun _ _ => rfl, fun _ _ _ _ _ => rfl⟩⟩
  | deviceReady =>
    exact ⟨fun _ _ => rfl, fun _ h => absurd rfl h, fun _ _ => rfl, fun p => ⟨fun _ _ => rfl, fun _ _ _ _ _ => rfl⟩⟩

end Sys2Proof.Machine

/-!
PROOFS. Canonical memory, the lives of descriptors and the lives of channels. A move keeps the form of buffer memory; it
lets a descriptor go on in its life, come back to its producer or become FREE; it lets a channel go on, begin to close or
unbind. The listed transitions that are left are those of `Shift`, `Bind` and a re-examination.
-/

namespace Sys2Proof.Machine

/-! ### Buffer memory -/

/-- Whatever leaves buffer memory, its upsets and its lasting faults alone. -/
theorem State.memoryWf_of_eq {s t : State} (hs : s.memoryWf) (hm : t.mem = s.mem) (hu : t.upsets = s.upsets)
    (hk : t.stuckCells = s.stuckCells) : t.memoryWf := by
  rwa [State.memoryWf, hm, hu, hk]

theorem State.freeDesc_keepsMemory (s : State) (i : DescIx) (hs : s.memoryWf) : (s.freeDesc i).memoryWf := by
  obtain ⟨d, x, f, r, n, h⟩ := s.freeDesc_frame i
  exact State.memoryWf_of_eq hs (by rw [h]) (by rw [h]) (by rw [h])

theorem State.allocTo_keepsMemory (s : State) (p : Port) (n : Nat) (i : DescIx) (hs : s.memoryWf) :
    (s.allocTo p n i).memoryWf := by
  obtain ⟨x, h⟩ := s.allocTo_frame p n i
  exact State.memoryWf_of_eq hs (by rw [h]; rfl) (by rw [h]; rfl) (by rw [h]; rfl)

theorem Move.keepsMemory {k : Option ChanIx} {s t : State} (h : Move k s t) (hs : s.memoryWf) : t.memoryWf := by
  cases h with
  | tells h => exact h.form hs
  | free => exact s.freeDesc_keepsMemory _ hs
  | freeForward => exact State.freeDesc_keepsMemory _ _ hs
  | freeReturn => exact State.freeDesc_keepsMemory _ _ hs
  | dropAlloc p tag =>
    unfold State.dropAllocWait
    dsimp only
    split <;> exact hs
  | endTest pass => cases pass <;> exact hs
  | upset w flips cells level =>
    obtain ⟨hm, hu, hk⟩ := hs
    rw [noteUpset_frame s w flips cells]
    exact ⟨hm, upsetWord_keeps_form s w flips cells level hu hk⟩
  | depart =>
    unfold State.dropHoldings
    dsimp only
    split <;> exact hs
  | _ => exact hs

theorem Run.keepsMemory {s t : State} (h : Run s t) (hs : s.memoryWf) : t.memoryWf := by
  refine h.keeps (P := State.memoryWf) (fun _ _ _ => Move.keepsMemory) (fun _ s t h hs => ?_) (fun s t h hs => ?_) hs
  · cases h with
    | allocate => exact s.allocTo_keepsMemory _ _ _ hs
    | _ => exact hs
  · cases h <;> exact hs

/-- Settles O14: moves store and upset words by the operations of buffer memory, which keep the form. -/
theorem memoryFormKept : Obligations.MemoryFormKept := by
  intro c s t hs hexec
  cases effect_of_exec hexec with
  | run h => exact h.keepsMemory hs
  | read _ h ht =>
    obtain ⟨w, l, rfl⟩ := ht
    exact h.keepsMemory hs
  | grant _ _ ht => exact ht.form hs
  | reexamine =>
    exact State.reexamine_keeps (P := State.memoryWf) (fun _ _ => hs)
      (fun u e rest i hu _ _ => (State.complete_tells ..).form (State.allocTo_keepsMemory _ _ _ _ hu)) hs
  | tick h =>
    rw [State.tickOnce_eq h]
    exact hs
  | walk h =>
    rw [State.walkStep_eq h]
    exact (run_walkAt s _ _).keepsMemory hs
  | resetAssert ho h =>
    have hdrop : (s.dropHoldings _).memoryWf := Move.keepsMemory (k := none) (.depart ho) hs
    exact Run.keepsMemory (.calm h) hdrop
  | assertOnly => exact hs
  | resetRelease => exact hs
  | deviceReset => exact hs
  | memoryClear =>
    obtain ⟨hm, hu⟩ := zeroMemory_keeps_form s
    obtain ⟨_, _, hk⟩ := hs
    exact ⟨hm, hu, hk⟩
  | deviceReady => exact hs

/-! ### The lives of descriptors -/

/-- The fields a buffer keeps for one life: its origin and its block list, and its damaged flag once set (R3, R5, R9). -/
def Desc.sameLife (d d' : Desc) : Prop :=
  d.buf.map Buf.origin = d'.buf.map Buf.origin ∧ d.blockList = d'.blockList ∧ (d.damaged = true → d'.damaged = true)

/-- What a move lets a descriptor do: become FREE, or go on in its life, in its state or back from a forward queue. In this
direction moves compose. -/
def Desc.passes (d d' : Desc) : Prop :=
  d'.state = .free ∨
    d.sameLife d' ∧ (d'.state = d.state ∨ d.state = .queued ∧ (d'.state = .returning ∨ d'.state = .collected))

/-- What a command lets a descriptor do: nothing of its state, or a transition of the table (R3), in one life while it stays
out of FREE. -/
def Desc.lives (d d' : Desc) : Prop :=
  (d.state = d'.state ∨ d'.state = .free ∨
      (d.state, d'.state) ∈
        [(DescState.free, DescState.filling), (.filling, .queued), (.filling, .held), (.queued, .held),
          (.queued, .returning), (.queued, .collected), (.held, .returning), (.held, .collected),
          (.returning, .collected), (.collected, .filling)]) ∧
    (d.state ≠ .free → d'.state ≠ .free → d.sameLife d')

theorem Desc.sameLife_refl (d : Desc) : d.sameLife d := ⟨rfl, rfl, id⟩

theorem Desc.sameLife.trans {d e f : Desc} (h : d.sameLife e) (g : e.sameLife f) : d.sameLife f := by
  obtain ⟨ho, hb, hd⟩ := h
  obtain ⟨go, gb, gd⟩ := g
  exact ⟨ho.trans go, hb.trans gb, gd ∘ hd⟩

/-- Two lives with the same buffer fields. -/
theorem Desc.sameLife_of_buf {d d' : Desc} (h : d'.buf = d.buf) : d.sameLife d' := by
  simp [Desc.sameLife, Desc.blockList, Desc.damaged, h]

theorem Desc.passes_refl (d : Desc) : d.passes d := .inr ⟨d.sameLife_refl, .inl rfl⟩

theorem Desc.passes.trans {d e f : Desc} (h : d.passes e) (g : e.passes f) : d.passes f := by
  obtain hf | ⟨gl, gs⟩ := g
  · exact .inl hf
  obtain he | ⟨hl, hs⟩ := h
  · obtain gs | ⟨gq, _⟩ := gs
    · exact .inl (gs.trans he)
    · exact absurd (he.symm.trans gq) (by simp)
  · refine .inr ⟨hl.trans gl, ?_⟩
    obtain hs | ⟨hq, hr⟩ := hs
    · rwa [hs] at gs
    · obtain gs | ⟨gq, _⟩ := gs
      · exact .inr ⟨hq, by rwa [gs]⟩
      · rw [gq] at hr
        simp at hr

theorem Desc.passes.lives {d d' : Desc} (h : d.passes d') : d.lives d' := by
  obtain hf | ⟨hl, hs⟩ := h
  · exact ⟨.inr (.inl hf), fun _ hn => absurd hf hn⟩
  · refine ⟨?_, fun _ _ => hl⟩
    obtain hs | ⟨hq, hr | hr⟩ := hs
    · exact .inl hs.symm
    · exact .inr (.inr (by simp [hq, hr]))
    · exact .inr (.inr (by simp [hq, hr]))

theorem Desc.sameLife_withDamage (d : Desc) : d.sameLife d.withDamage := by
  cases h : d.life <;> simp [Desc.sameLife, Desc.withDamage, Desc.blockList, Desc.damaged, Desc.buf, h]

theorem Desc.state_withDamage (d : Desc) : d.withDamage.state = d.state := by
  cases h : d.life <;> simp [Desc.withDamage, Desc.state, h]

theorem Desc.passes_count (d : Desc) : d.passes d.count := by
  unfold Desc.count
  split
  next h => exact .inr ⟨Desc.sameLife_of_buf (by simp [Desc.buf, h]), .inl (by simp [Desc.state, h])⟩
  all_goals exact d.passes_refl

/-- Every descriptor passes from `s` to `t`. -/
def State.descsPass (s t : State) : Prop := ∀ i, (s.desc i).passes (t.desc i)

theorem State.descsPass_of_descs {s t : State} (h : t.descs = s.descs) : s.descsPass t := fun i => by
  rw [State.desc_of_descs h]
  exact Desc.passes_refl _

theorem State.descsPass_freeDesc (s : State) (i : DescIx) : s.descsPass (s.freeDesc i) := fun j => by
  by_cases hij : i = j
  · subst hij
    by_cases hb : (s.desc i).buf = none
    · simp only [State.freeDesc, hb]
      exact Desc.passes_refl _
    · rw [s.freeDesc_desc_same i hb]
      exact .inl rfl
  · rw [s.freeDesc_desc_ne hij]
    exact Desc.passes_refl _

/-- One descriptor passes, and the others are as they were. -/
theorem State.descsPass_setLife {s : State} {i : DescIx} {l : Life} (h : (s.desc i).passes ⟨(s.desc i).generation, l⟩) :
    s.descsPass (s.setLife i l) := fun j => by
  rw [State.desc_setLife]
  split_ifs with hij
  · exact hij ▸ h
  · exact Desc.passes_refl _

theorem Move.descsPass {k : Option ChanIx} {s t : State} (h : Move k s t) : s.descsPass t := by
  cases h with
  | tells h => exact State.descsPass_of_descs h.descs
  | free => exact s.descsPass_freeDesc _
  | freeForward => exact State.descsPass_freeDesc (s.setChan ..) _
  | freeReturn => exact State.descsPass_freeDesc (s.setChan ..) _
  | bounceCollect hc hf hl =>
    refine State.descsPass_setLife (s := s.setChan ..) (.inr ⟨Desc.sameLife_of_buf ?_, .inr ⟨?_, .inr rfl⟩⟩)
    · simp [Desc.buf, hl]
    · simp [Desc.state, hl]
  | bounceReturn hc hf hl =>
    refine State.descsPass_setLife (s := s.setChan ..) (.inr ⟨Desc.sameLife_of_buf ?_, .inr ⟨?_, .inl rfl⟩⟩)
    · simp [Desc.buf, hl]
    · simp [Desc.state, hl]
  | dropAlloc p tag => exact State.descsPass_of_descs (s.dropAllocWait_descs p tag)
  | damage =>
    intro j
    rw [State.desc_setDesc]
    split_ifs with hij
    · exact hij ▸ .inr ⟨Desc.sameLife_withDamage _, .inl (Desc.state_withDamage _)⟩
    · exact Desc.passes_refl _
  | renew hl =>
    refine State.descsPass_setLife (.inr ⟨Desc.sameLife_of_buf ?_, .inl ?_⟩)
    · simp [Desc.buf, hl]
    · simp [Desc.state, hl]
  | @endTest x y pass hx hy => exact State.descsPass_of_descs (s.takeResult_descs x.block pass)
  | upset w flips cells level => exact State.descsPass_of_descs (by rw [noteUpset_frame s w flips cells]; rfl)
  | @depart p ho => exact State.descsPass_of_descs (s.dropHoldings_descs p)
  | _ => exact State.descsPass_of_descs rfl

theorem Calm.descsPass {s t : State} (h : Calm s t) : s.descsPass t :=
  h.relates (R := State.descsPass) (fun _ => State.descsPass_of_descs rfl) (fun _ _ _ a b i => (a i).trans (b i))
    (fun _ _ _ => Move.descsPass)

/-- Every descriptor lives from `s` to `t`. -/
def State.descsLive (s t : State) : Prop := ∀ i, (s.desc i).lives (t.desc i)

theorem State.descsPass.live {s t : State} (h : s.descsPass t) : s.descsLive t := fun i => (h i).lives

/-- One descriptor makes a listed transition in one life, and the others are as they were. -/
theorem State.descsLive_setLife {s : State} {i : DescIx} {l : Life} (h : (s.desc i).lives ⟨(s.desc i).generation, l⟩) :
    s.descsLive (s.setLife i l) := fun j => by
  rw [State.desc_setLife]
  split_ifs with hij
  · exact hij ▸ h
  · exact (Desc.passes_refl _).lives

/-- A FREE descriptor that is filled. -/
theorem Desc.lives_of_free {d d' : Desc} (h : d.state = .free) (h' : d'.state = .filling) : d.lives d' :=
  ⟨.inr (.inr (by simp [h, h'])), fun hn => absurd h hn⟩

theorem State.allocTo_descs (s : State) (p : Port) (n : Nat) (i : DescIx) :
    (s.allocTo p n i).descs = (s.setLife i (.filling ⟨p, s.freeList.take n, false⟩)).descs := by
  obtain ⟨x, h⟩ := s.allocTo_frame p n i
  rw [h]

theorem Shift.descsLive {k : Option ChanIx} {s t : State} (h : Shift k s t) : s.descsLive t := by
  cases h with
  | @allocate p n i ho hi =>
    have hd := State.desc_of_descs (s.allocTo_descs p n i)
    intro j
    rw [hd]
    exact State.descsLive_setLife (Desc.lives_of_free hi rfl) j
  | post hc hs hd hl =>
    exact State.descsLive_setLife (s := s.setChan ..)
      ⟨.inr (.inr (by simp [Desc.state, hl])), fun _ _ => Desc.sameLife_of_buf (by simp [Desc.buf, hl])⟩
  | postTaken hc hs hd hl =>
    exact State.descsLive_setLife (s := s.setChan ..)
      ⟨.inr (.inr (by simp [Desc.state, hl])), fun _ _ => Desc.sameLife_of_buf (by simp [Desc.buf, hl])⟩
  | take hc hf hl =>
    exact State.descsLive_setLife (s := s.setChan ..)
      ⟨.inr (.inr (by simp [Desc.state, hl])), fun _ _ => Desc.sameLife_of_buf (by simp [Desc.buf, hl])⟩
  | collect hc hf hl =>
    exact State.descsLive_setLife (s := s.setChan ..)
      ⟨.inr (.inr (by simp [Desc.state, hl])), fun _ _ => Desc.sameLife_of_buf (by simp [Desc.buf, hl])⟩
  | comeCollect hl =>
    exact State.descsLive_setLife (s := s.setChan ..)
      ⟨.inr (.inr (by simp [Desc.state, hl])), fun _ _ => Desc.sameLife_of_buf (by simp [Desc.buf, hl])⟩
  | comeReturn hl =>
    exact State.descsLive_setLife (s := s.setChan ..)
      ⟨.inr (.inr (by simp [Desc.state, hl])), fun _ _ => Desc.sameLife_of_buf (by simp [Desc.buf, hl])⟩
  | refill hl =>
    exact State.descsLive_setLife
      ⟨.inr (.inr (by simp [Desc.state, hl])), fun _ _ => Desc.sameLife_of_buf (by simp [Desc.buf, hl])⟩

theorem Run.descsLive {s t : State} (h : Run s t) : s.descsLive t := by
  cases h with
  | calm h => exact h.descsPass.live
  | shift h _ hd _ =>
    intro i
    rw [State.desc_of_descs hd]
    exact h.descsLive i
  | @bind _ u _ h ht =>
    have hd : u.descs = s.descs := by cases h <;> rfl
    exact (State.descsPass_of_descs (ht.descs.trans hd)).live

/-- A re-examination fills FREE descriptors and leaves every other one alone (R13). -/
theorem State.reexamine_desc (s : State) (i : DescIx) :
    s.reexamine.desc i = s.desc i ∨ (s.desc i).state = .free ∧ (s.reexamine.desc i).state = .filling := by
  refine State.reexamine_keeps
    (P := fun u => u.desc i = s.desc i ∨ (s.desc i).state = .free ∧ (u.desc i).state = .filling) (fun _ _ => .inl rfl)
    (fun u e rest j hu hw hg => ?_) (.inl rfl)
  have hfree : (u.desc j).state = .free := by
    unfold State.canGive at hg
    split_ifs at hg
    exact (u.lowestFree_spec j hg).1
  have hd : ({ u with allocWaits := rest }.satisfy e.port e.tag e.count j).desc i =
      (u.setLife j (.filling ⟨e.port, u.freeList.take e.count, false⟩)).desc i :=
    State.desc_of_descs ((State.complete_descs ..).trans (State.allocTo_descs ..)) i
  rw [hd, State.desc_setLife]
  split_ifs with hji
  · subst hji
    refine .inr ⟨?_, rfl⟩
    obtain h | ⟨_, h⟩ := hu
    · rwa [h] at hfree
    · exact absurd (hfree.symm.trans h) (by simp)
  · exact hu

/-- Settles O17: what every effect of a command does to one descriptor. -/
theorem descriptorLives : Obligations.DescriptorLives := by
  intro c s t i hexec
  suffices (s.desc i).lives (t.desc i) from this
  cases effect_of_exec hexec with
  | run h => exact h.descsLive i
  | read _ h ht =>
    obtain ⟨w, l, rfl⟩ := ht
    exact h.descsLive i
  | grant _ _ ht =>
    rw [ht.desc]
    exact (Desc.passes_refl _).lives
  | reexamine =>
    obtain h | ⟨hf, ht⟩ := s.reexamine_desc i
    · rw [h]
      exact (Desc.passes_refl _).lives
    · exact Desc.lives_of_free hf ht
  | tick h =>
    rw [State.desc_tickOnce, h]
    exact (Desc.passes_count _).lives
  | walk h =>
    rw [State.walkStep_eq h]
    exact (run_walkAt s _ _).descsLive i
  | @resetAssert _ _ p ho h =>
    have hdrop : s.descsPass (s.dropHoldings p) := State.descsPass_of_descs (s.dropHoldings_descs p)
    exact ((hdrop i).trans (h.descsPass i)).lives
  | assertOnly => exact (Desc.passes_refl _).lives
  | resetRelease => exact (Desc.passes_refl _).lives
  | deviceReset => exact Desc.passes.lives (.inl (by simp [State.deviceReset, State.reset, State.desc, Desc.state]))
  | memoryClear => exact (Desc.passes_refl _).lives
  | deviceReady => exact (Desc.passes_refl _).lives

/-! ### The lives of channels -/

/-- What a move lets a channel do: unbind, or go on with its kind, ends and limits and its closed flags once set. In this
direction moves compose. -/
def Chan.passes : Chan → Chan → Prop
  | _, .unbound => True
  | .offered m _ _, .offered m' _ _ => m' = m
  | .active a, .active b =>
    b.params = a.params ∧ (a.closedProducer = true → b.closedProducer = true) ∧
      (a.closedConsumer = true → b.closedConsumer = true)
  | _, _ => False

theorem Chan.passes_refl (x : Chan) : x.passes x := by
  cases x <;> simp [Chan.passes]

theorem Chan.passes.trans {x y z : Chan} (h : x.passes y) (g : y.passes z) : x.passes z := by
  cases x <;> cases y <;> cases z <;> simp_all [Chan.passes]

/-- What a command lets a channel do: nothing of its state, or a change of the table, with its kind, ends and limits while
it stays bound and its closed flags once set (R41, R89). -/
structure Chan.lives (x y : Chan) : Prop where
  state : x.state = y.state ∨ y.state = .unbound ∨
    (x.state, y.state) ∈ [(ChanState.unbound, ChanState.offered), (.offered, .opened), (.opened, .closing)]
  params : x.state ≠ .unbound → y.state ≠ .unbound → y.params? = x.params?
  flags : ∀ a b : Active, x = .active a → y = .active b →
    (a.closedProducer = true → b.closedProducer = true) ∧ (a.closedConsumer = true → b.closedConsumer = true)

theorem Chan.passes.lives {x y : Chan} (h : x.passes y) : x.lives y := by
  cases y with
  | unbound => exact ⟨.inr (.inl rfl), fun _ hn => absurd rfl hn, fun _ _ _ hb => nomatch hb⟩
  | offered m tag timer =>
    cases x with
    | unbound => exact h.elim
    | offered m' tag' timer' =>
      obtain rfl : m = m' := h
      exact ⟨.inl rfl, fun _ _ => rfl, fun _ _ ha => nomatch ha⟩
    | active a => exact h.elim
  | active b =>
    cases x with
    | unbound => exact h.elim
    | offered => exact h.elim
    | active a =>
      obtain ⟨hm, hp, hc⟩ := h
      refine ⟨?_, fun _ _ => congrArg some hm, ?_⟩
      · simp only [Chan.state]
        split_ifs with h1 h2 <;> simp_all
      · rintro a' b' ⟨⟩ ⟨⟩
        exact ⟨hp, hc⟩

/-- The ends of a channel that passes are ends it had. -/
theorem Chan.passes.params {x y : Chan} (h : x.passes y) {m : ChanParams} (hm : y.params? = some m) :
    x.params? = some m := by
  cases x <;> cases y <;> simp_all [Chan.passes, Chan.params?]

theorem Chan.passes_count (x : Chan) : x.passes x.count := by
  cases x <;> simp [Chan.count, Chan.passes]

/-- Every channel passes from `s` to `t`. -/
def State.chansPass (s t : State) : Prop := ∀ c, (s.chan c).passes (t.chan c)

theorem State.chansPass_of_chans {s t : State} (h : t.chans = s.chans) : s.chansPass t := fun c => by
  rw [State.chan, State.chan, h]
  exact Chan.passes_refl _

theorem State.chansPass_setChan {s : State} {c : ChanIx} {x : Chan} (h : (s.chan c).passes x) :
    s.chansPass (s.setChan c x) := fun d => by
  rw [State.chan_setChan]
  split_ifs with hcd
  · exact hcd ▸ h
  · exact Chan.passes_refl _

/-- A channel that is `active` changes its queues, lists and sequence, and sets closed flags. -/
theorem State.chansPass_setActive {s : State} {c : ChanIx} {a b : Active} (hc : s.chan c = .active a)
    (h : (Chan.active a).passes (.active b)) : s.chansPass (s.setChan c (.active b)) :=
  State.chansPass_setChan (hc ▸ h)

theorem State.chansPass.trans {s t u : State} (h : s.chansPass t) (g : t.chansPass u) : s.chansPass u :=
  fun c => (h c).trans (g c)

theorem State.freeDesc_chans (s : State) (i : DescIx) : (s.freeDesc i).chans = s.chans := by
  obtain ⟨d, x, f, r, n, h⟩ := s.freeDesc_frame i
  rw [h]

theorem State.allocTo_chans (s : State) (p : Port) (n : Nat) (i : DescIx) : (s.allocTo p n i).chans = s.chans := by
  obtain ⟨x, h⟩ := s.allocTo_frame p n i
  rw [h]
  rfl

theorem State.dropAllocWait_chans (s : State) (p : Port) (tag : Tag) : (s.dropAllocWait p tag).chans = s.chans := by
  unfold State.dropAllocWait
  dsimp only
  split <;> rfl

theorem State.dropHoldings_chan (s : State) (p : Port) (c : ChanIx) :
    (s.dropHoldings p).chan c = (s.chan c).dropWaits p := by
  unfold State.dropHoldings
  dsimp only
  split <;> simp [State.chan, State.callReexam]

theorem Chan.passes_dropWaits (p : Port) (x : Chan) : x.passes (x.dropWaits p) := by
  cases x <;> simp [Chan.dropWaits, Chan.passes]

theorem State.chansPass_dropHoldings (s : State) (p : Port) : s.chansPass (s.dropHoldings p) := fun c => by
  rw [State.dropHoldings_chan]
  exact Chan.passes_dropWaits ..

theorem State.takeResult_chans (s : State) (b : BlockIx) (pass : Bool) : (s.takeResult b pass).chans = s.chans := by
  cases pass <;> rfl

theorem State.noteUpset_chans (s : State) (w : MemIx) (flips cells level : StoredBits) :
    ((s.noteUpset w flips cells).upsetWord w flips cells level).chans = s.chans := by
  rw [noteUpset_frame]
  rfl

theorem Move.chansPass {k : Option ChanIx} {s t : State} (h : Move k s t) : s.chansPass t := by
  cases h with
  | tells h => exact State.chansPass_of_chans h.chans
  | free => exact State.chansPass_of_chans (State.freeDesc_chans ..)
  | freeForward hc =>
    refine State.chansPass.trans ?_ (State.chansPass_of_chans (State.freeDesc_chans ..))
    exact State.chansPass_setActive hc ⟨rfl, id, id⟩
  | freeReturn hc =>
    refine State.chansPass.trans ?_ (State.chansPass_of_chans (State.freeDesc_chans ..))
    exact State.chansPass_setActive hc ⟨rfl, id, id⟩
  | bounceCollect hc => exact State.chansPass_setActive hc ⟨rfl, id, id⟩
  | bounceReturn hc => exact State.chansPass_setActive hc ⟨rfl, id, id⟩
  | dropStray hc => exact State.chansPass_setActive hc ⟨rfl, id, id⟩
  | close hc hx hy => exact State.chansPass_setActive hc ⟨rfl, hx, hy⟩
  | unbind => exact State.chansPass_setChan trivial
  | unoffer => exact State.chansPass_setChan trivial
  | leaveWaits hc => exact State.chansPass_setActive hc ⟨rfl, id, id⟩
  | joinTakes hc => exact State.chansPass_setActive hc ⟨rfl, id, id⟩
  | joinCollects hc => exact State.chansPass_setActive hc ⟨rfl, id, id⟩
  | dropAlloc p tag => exact State.chansPass_of_chans (s.dropAllocWait_chans p tag)
  | @endTest x y pass hx hy => exact State.chansPass_of_chans (s.takeResult_chans x.block pass)
  | upset w flips cells level => exact State.chansPass_of_chans (s.noteUpset_chans w flips cells level)
  | @depart p ho => exact s.chansPass_dropHoldings p
  | _ => exact State.chansPass_of_chans rfl

theorem Shift.chansPass {k : Option ChanIx} {s t : State} (h : Shift k s t) : s.chansPass t := by
  cases h with
  | allocate => exact State.chansPass_of_chans (State.allocTo_chans ..)
  | post hc => exact State.chansPass_setActive hc ⟨rfl, id, id⟩
  | postTaken hc => exact State.chansPass_setActive hc ⟨rfl, id, id⟩
  | take hc => exact State.chansPass_setActive hc ⟨rfl, id, id⟩
  | collect hc => exact State.chansPass_setActive hc ⟨rfl, id, id⟩
  | comeCollect hl hc => exact State.chansPass_setActive hc ⟨rfl, id, id⟩
  | comeReturn hl hc => exact State.chansPass_setActive hc ⟨rfl, id, id⟩
  | refill => exact State.chansPass_of_chans rfl

theorem Calm.chansPass {s t : State} (h : Calm s t) : s.chansPass t :=
  h.relates (R := State.chansPass) (fun _ => State.chansPass_of_chans rfl) (fun _ _ _ => State.chansPass.trans)
    (fun _ _ _ => Move.chansPass)

theorem Path.chansPass {k : Option ChanIx} {s t : State} (h : Path k s t) : s.chansPass t :=
  h.relates (R := State.chansPass) (fun _ => State.chansPass_of_chans rfl) (fun _ _ _ => State.chansPass.trans)
    (fun _ _ => Move.chansPass)

/-- Every channel lives from `s` to `t`, and none comes to have one port at both ends. -/
structure State.chansLive (s t : State) : Prop where
  lives : ∀ c, (s.chan c).lives (t.chan c)
  ends : s.endsLaw → t.endsLaw

theorem State.chansPass.live {s t : State} (h : s.chansPass t) : s.chansLive t :=
  ⟨fun c => (h c).lives, fun hs c m hm => hs c m ((h c).params hm)⟩

theorem State.chansLive_of_chans {s t : State} (h : t.chans = s.chans) : s.chansLive t :=
  (State.chansPass_of_chans h).live

/-- One channel lives with two different ends, and the others are as they were. -/
theorem State.chansLive_setChan {s : State} {c : ChanIx} {x : Chan} (h : (s.chan c).lives x)
    (hm : ∀ m, s.endsLaw → x.params? = some m → m.producer ≠ m.consumer) : s.chansLive (s.setChan c x) := by
  refine ⟨fun d => ?_, fun hs d m hd => ?_⟩
  · rw [State.chan_setChan]
    split_ifs with hcd
    · exact hcd ▸ h
    · exact (Chan.passes_refl _).lives
  · rw [State.chan_setChan] at hd
    split_ifs at hd with hcd
    · exact hm m hs hd
    · exact hs d m hd

theorem Bind.chansLive {s t : State} (h : Bind s t) : s.chansLive t := by
  cases h with
  | offer hc hm tag timer =>
    refine State.chansLive_setChan ?_ fun m _ h => Option.some.inj h ▸ hm
    rw [hc]
    exact ⟨.inr (.inr (by simp [Chan.state])), fun hn => absurd rfl hn, fun _ _ ha => nomatch ha⟩
  | @accept c m _ _ hc =>
    refine State.chansLive_setChan ?_ fun m' hs h => ?_
    · rw [hc]
      exact ⟨.inr (.inr (by simp [Chan.state, Active.opened])), fun _ _ => rfl, fun _ _ ha => nomatch ha⟩
    · exact hs c m' (by rw [hc]; exact h)

theorem Run.chansLive {s t : State} (h : Run s t) : s.chansLive t := by
  cases h with
  | calm h => exact h.chansPass.live
  | shift h hp _ _ => exact (h.chansPass.trans hp.chansPass).live
  | bind h ht =>
    obtain ⟨hl, he⟩ := h.chansLive
    refine ⟨fun c => ?_, fun hs c m hm => ?_⟩
    · rw [ht.chan]
      exact hl c
    · rw [ht.chan] at hm
      exact he hs c m hm

theorem State.reexamine_chans (s : State) : s.reexamine.chans = s.chans := by
  unfold State.reexamine
  split
  next => rfl
  next n _ =>
    obtain ⟨x, d, b, f, w, h⟩ := State.serveHeads_frame s.allocWaits.length { s with reexamsDue := n }
    rw [h]

/-- Settles O18: what every effect of a command does to the channels. -/
theorem channelLives : Obligations.ChannelLives := by
  intro c s t k hexec
  suffices h : s.chansLive t by
    obtain ⟨hlives, hends⟩ := h
    obtain ⟨hstate, hparams, hflags⟩ := hlives k
    exact ⟨hstate, hparams, hflags, hends⟩
  cases effect_of_exec hexec with
  | run h => exact h.chansLive
  | read _ h ht =>
    obtain ⟨w, l, rfl⟩ := ht
    exact ⟨h.chansLive.lives, h.chansLive.ends⟩
  | grant _ _ ht => exact State.chansLive_of_chans ht.chans
  | reexamine => exact State.chansLive_of_chans s.reexamine_chans
  | tick h =>
    rw [State.tickOnce_eq h]
    refine State.chansPass.live fun c => ?_
    simp only [State.chan, Fin.getElem_fin, Vector.getElem_map]
    exact Chan.passes_count _
  | walk h =>
    rw [State.walkStep_eq h]
    obtain ⟨hlives, hends⟩ := (run_walkAt s _ _).chansLive
    exact ⟨hlives, hends⟩
  | @resetAssert _ _ p ho h =>
    exact ((s.chansPass_dropHoldings p).trans h.chansPass).live
  | assertOnly => exact State.chansLive_of_chans rfl
  | resetRelease => exact State.chansLive_of_chans rfl
  | deviceReset =>
    have hu (c : ChanIx) : s.deviceReset.chan c = .unbound := by simp [State.deviceReset, State.reset, State.chan]
    exact State.chansPass.live fun c => by rw [hu]; exact trivial
  | memoryClear => exact State.chansLive_of_chans rfl
  | deviceReady => exact State.chansLive_of_chans rfl

end Sys2Proof.Machine

/-!
PROOFS. The channel queues. Each queue and each descriptor name each other (R11): a descriptor leaves the head of a queue or
joins the tail of one, and every move and every buffer moved to a new life is made of such steps. Where they agree, the
descriptors in transit on a channel are those whose record says so, and the record names an open channel with its ends (R4,
R67).
-/

namespace Sys2Proof.Machine

/-! ### Queues and places -/

/-- The queue the record places its descriptor in: the forward queue (`false`) or the return queue (`true`) of a channel. -/
def Life.place : Life → Option (Bool × ChanIx)
  | .queued _ t => some (false, t.channel)
  | .returning _ t _ => some (true, t.channel)
  | .free | .filling _ | .held _ _ _ _ _ | .collected _ _ _ => none

/-- The forward queue (`false`) or the return queue (`true`) of a channel, empty where it is absent. -/
def Chan.queue (x : Chan) (back : Bool) : List DescIx :=
  match x with
  | .unbound | .offered _ _ _ => []
  | .active a => if back then a.returns else a.forward

/-- The sixteen forward queues and the sixteen return queues. -/
def State.queueAt (s : State) (x : Bool × ChanIx) : List DescIx := (s.chan x.2).queue x.1

/-- The places of the descriptors. -/
def State.placeOf (s : State) (i : DescIx) : Option (Bool × ChanIx) := (s.desc i).life.place

/-- Each descriptor stands once in the queue of its place and in no other. -/
def queuesAgree (Q : Bool × ChanIx → List DescIx) (P : DescIx → Option (Bool × ChanIx)) : Prop :=
  ∀ x i, (Q x).count i = if P i = some x then 1 else 0

theorem nodup_and_mem_iff_count {l : List DescIx} {p : DescIx → Prop} [DecidablePred p] :
    (l.Nodup ∧ ∀ i, i ∈ l ↔ p i) ↔ ∀ i, l.count i = if p i then 1 else 0 := by
  constructor
  · rintro ⟨hn, hm⟩ i
    split_ifs with h
    · exact List.count_eq_one_of_mem hn ((hm i).2 h)
    · exact List.count_eq_zero.2 (mt (hm i).1 h)
  · intro h
    refine ⟨List.nodup_iff_count_le_one.2 fun i => ?_, fun i => ?_⟩
    · rw [h i]
      split_ifs <;> simp
    · rw [← List.count_pos_iff, h i]
      split_ifs with hp <;> simp [hp]

theorem Desc.queuedOn_iff (d : Desc) (c : ChanIx) : d.queuedOn c = true ↔ d.life.place = some (false, c) := by
  cases h : d.life <;> simp [Desc.queuedOn, Desc.state, Desc.traffic, Life.place, h]

theorem Desc.returningOn_iff (d : Desc) (c : ChanIx) : d.returningOn c = true ↔ d.life.place = some (true, c) := by
  cases h : d.life <;> simp [Desc.returningOn, Desc.state, Desc.traffic, Life.place, h]

theorem State.forward_eq (s : State) (c : ChanIx) : s.forward c = s.queueAt (false, c) := by
  unfold State.forward State.queueAt
  cases s.chan c <;> simp [Chan.active?, Chan.queue]

theorem State.returns_eq (s : State) (c : ChanIx) : s.returns c = s.queueAt (true, c) := by
  unfold State.returns State.queueAt
  cases s.chan c <;> simp [Chan.active?, Chan.queue]

theorem State.queueLaw_iff {s : State} : s.queueLaw ↔ queuesAgree s.queueAt s.placeOf := by
  have hside (c : ChanIx) : ((s.forward c).Nodup ∧ (s.returns c).Nodup ∧
      ∀ i, (i ∈ s.forward c ↔ (s.desc i).queuedOn c = true) ∧ (i ∈ s.returns c ↔ (s.desc i).returningOn c = true)) ↔
        ∀ (back : Bool) i, (s.queueAt (back, c)).count i = if s.placeOf i = some (back, c) then 1 else 0 := by
    have hf := nodup_and_mem_iff_count (l := s.queueAt (false, c)) (p := fun i => s.placeOf i = some (false, c))
    have hr := nodup_and_mem_iff_count (l := s.queueAt (true, c)) (p := fun i => s.placeOf i = some (true, c))
    simp only [Bool.forall_bool, ← hf, ← hr, State.forward_eq, State.returns_eq, Desc.queuedOn_iff, Desc.returningOn_iff,
      forall_and]
    exact ⟨fun ⟨h1, h2, h3, h4⟩ => ⟨⟨h1, h3⟩, h2, h4⟩, fun ⟨⟨h1, h3⟩, h2, h4⟩ => ⟨h1, h2, h3, h4⟩⟩
  simp only [State.queueLaw, hside, queuesAgree, Prod.forall]
  exact forall_comm

/-! ### Leaving and joining -/

section
variable {Q : Bool × ChanIx → List DescIx} {P : DescIx → Option (Bool × ChanIx)} {x : Bool × ChanIx} {i : DescIx}

/-- A member of a queue is placed there. -/
theorem queuesAgree.place (h : queuesAgree Q P) (hi : i ∈ Q x) : P i = some x := by
  have hx := h x i
  rw [← List.count_pos_iff] at hi
  split_ifs at hx with hp
  · exact hp
  · omega

/-- The head of a queue leaves it for no place. -/
theorem queuesAgree.leave (h : queuesAgree Q P) {rest : List DescIx} (hx : Q x = i :: rest) :
    queuesAgree (Function.update Q x rest) (Function.update P i none) := by
  have hi : P i = some x := h.place (by rw [hx]; exact List.mem_cons_self ..)
  intro y j
  have hy := h y j
  by_cases hxy : y = x
  · subst hxy
    rw [hx, List.count_cons] at hy
    by_cases hij : j = i
    · subst hij
      simp [hi] at hy
      simp [hy]
    · have hij' : i ≠ j := fun e => hij e.symm
      simpa [hij, hij'] using hy
  · by_cases hij : j = i
    · subst hij
      rw [hi, if_neg (fun e => hxy (Option.some.inj e).symm)] at hy
      simp [hxy, hy]
    · simpa [hxy, hij] using hy

/-- A descriptor with no place joins the tail of a queue. -/
theorem queuesAgree.join (h : queuesAgree Q P) (hi : P i = none) :
    queuesAgree (Function.update Q x (Q x ++ [i])) (Function.update P i (some x)) := by
  intro y j
  have hy := h y j
  by_cases hij : j = i
  · subst hij
    rw [hi] at hy
    by_cases hxy : y = x
    · subst hxy
      simp_all
    · have hxy' : x ≠ y := fun e => hxy e.symm
      simp_all
  · have hij' : i ≠ j := fun e => hij e.symm
    by_cases hxy : y = x
    · subst hxy
      simpa [hij, hij', List.count_cons] using hy
    · simpa [hij, hxy] using hy

/-- A descriptor with no place stays without. -/
theorem queuesAgree.stay (h : queuesAgree Q P) (hi : P i = none) : queuesAgree Q (Function.update P i none) := by
  rwa [← hi, Function.update_eq_self]

end

/-! ### Queues and places under the updates of the state -/

section
variable {s : State} {c : ChanIx} {i : DescIx}

theorem State.placeOf_setLife (l : Life) : (s.setLife i l).placeOf = Function.update s.placeOf i l.place := by
  funext j
  rw [State.placeOf, State.desc_setLife]
  by_cases hij : i = j
  · subst hij
    simp
  · rw [if_neg hij, Function.update_of_ne (fun e => hij e.symm)]
    rfl

@[simp] theorem State.placeOf_setChan (x : Chan) : (s.setChan c x).placeOf = s.placeOf := rfl

theorem State.placeOf_freeDesc : (s.freeDesc i).placeOf = Function.update s.placeOf i none := by
  funext j
  by_cases hij : i = j
  · subst hij
    rw [Function.update_self, State.placeOf]
    by_cases hb : (s.desc i).buf = none
    · simp only [State.freeDesc, hb]
      rw [(Desc.buf_eq_none_iff _).1 hb]
      rfl
    · rw [s.freeDesc_desc_same i hb]
      rfl
  · rw [Function.update_of_ne (fun e => hij e.symm), State.placeOf, s.freeDesc_desc_ne hij]
    rfl

theorem State.placeOf_of_descs {s t : State} (h : t.descs = s.descs) : t.placeOf = s.placeOf := by
  funext j
  rw [State.placeOf, State.desc_of_descs h]
  rfl

theorem State.queueAt_of_chans {s t : State} (h : t.chans = s.chans) : t.queueAt = s.queueAt := by
  funext x
  simp only [State.queueAt, State.chan, h]

theorem State.queueAt_setActive (b : Active) : (s.setChan c (.active b)).queueAt =
    Function.update (Function.update s.queueAt (false, c) b.forward) (true, c) b.returns := by
  funext ⟨back, d⟩
  rw [State.queueAt, State.chan_setChan]
  by_cases hcd : c = d
  · subst hcd
    cases back <;> simp [Chan.queue]
  · have hdc : d ≠ c := fun e => hcd e.symm
    simp [hcd, hdc, State.queueAt]

theorem State.queueAt_setForward {a b : Active} (hc : s.chan c = .active a) (hr : b.returns = a.returns) :
    (s.setChan c (.active b)).queueAt = Function.update s.queueAt (false, c) b.forward := by
  have ha : b.returns = Function.update s.queueAt (false, c) b.forward (true, c) := by
    simp [State.queueAt, hc, Chan.queue, hr]
  rw [State.queueAt_setActive, ha, Function.update_eq_self]

theorem State.queueAt_setReturns {a b : Active} (hc : s.chan c = .active a) (hf : b.forward = a.forward) :
    (s.setChan c (.active b)).queueAt = Function.update s.queueAt (true, c) b.returns := by
  have ha : b.forward = s.queueAt (false, c) := by
    simp [State.queueAt, hc, Chan.queue, hf]
  rw [State.queueAt_setActive, ha, Function.update_eq_self]

/-- Whatever leaves the queues of a channel alone. -/
theorem State.queueAt_setChan_same {x : Chan} (hx : ∀ back, x.queue back = (s.chan c).queue back) :
    (s.setChan c x).queueAt = s.queueAt := by
  funext ⟨back, d⟩
  rw [State.queueAt, State.chan_setChan]
  split_ifs with hcd
  · subst hcd
    exact hx back
  · rfl

theorem State.queueAt_forward {a : Active} (hc : s.chan c = .active a) : s.queueAt (false, c) = a.forward := by
  simp [State.queueAt, hc, Chan.queue]

theorem State.queueAt_returns {a : Active} (hc : s.chan c = .active a) : s.queueAt (true, c) = a.returns := by
  simp [State.queueAt, hc, Chan.queue]

/-- A channel with nothing in transit has empty queues. -/
theorem State.queue_of_inTransit (h : s.inTransit c = 0) (back : Bool) : (s.chan c).queue back = [] := by
  cases hc : s.chan c with
  | unbound => rfl
  | offered => rfl
  | active a =>
    simp only [State.inTransit, State.forwardCount, State.returnCount, hc, Chan.active?, Nat.add_eq_zero_iff,
      List.length_eq_zero_iff] at h
    obtain ⟨⟨hf, _⟩, hr⟩ := h
    simp [Chan.queue, hf, hr]

end

/-! ### The law of the queues -/

theorem State.queueLaw_of_eq {s t : State} (hs : s.queueLaw) (hq : t.queueAt = s.queueAt) (hp : t.placeOf = s.placeOf) :
    t.queueLaw := by
  rw [State.queueLaw_iff] at hs ⊢
  rwa [hq, hp]

theorem State.queueAt_of_passing {s t : State} (hf : ∀ c back, (t.chan c).queue back = (s.chan c).queue back) :
    t.queueAt = s.queueAt := funext fun ⟨back, c⟩ => hf c back

theorem Life.place_of_buf {l : Life} (hq : (Desc.mk 0 l).state ≠ .queued) (hr : (Desc.mk 0 l).state ≠ .returning) :
    l.place = none := by
  cases l <;> simp_all [Life.place, Desc.state]

theorem Chan.queue_dropWaits (p : Port) (x : Chan) (back : Bool) : (x.dropWaits p).queue back = x.queue back := by
  cases x <;> rfl

theorem Move.queueLaw {k : Option ChanIx} {s t : State} (h : Move k s t) (hs : s.queueLaw) : t.queueLaw := by
  have hs' := State.queueLaw_iff.1 hs
  cases h with
  | tells h => exact State.queueLaw_of_eq hs (State.queueAt_of_chans h.chans) (State.placeOf_of_descs h.descs)
  | @free i hq hr =>
    rw [State.queueLaw_iff, State.placeOf_freeDesc, State.queueAt_of_chans (State.freeDesc_chans ..)]
    exact hs'.stay (Life.place_of_buf hq hr)
  | freeForward hc hf =>
    rw [State.queueLaw_iff, State.placeOf_freeDesc, State.queueAt_of_chans (State.freeDesc_chans ..),
      State.queueAt_setForward hc]
    · exact hs'.leave ((State.queueAt_forward hc).trans hf)
    · rfl
  | freeReturn hc hf =>
    rw [State.queueLaw_iff, State.placeOf_freeDesc, State.queueAt_of_chans (State.freeDesc_chans ..),
      State.queueAt_setReturns hc]
    · exact hs'.leave ((State.queueAt_returns hc).trans hf)
    · rfl
  | bounceCollect hc hf =>
    rw [State.queueLaw_iff, State.placeOf_setLife, State.queueAt_of_chans (State.setLife_chans ..),
      State.queueAt_setForward hc]
    · exact hs'.leave ((State.queueAt_forward hc).trans hf)
    · rfl
  | @bounceReturn c a i rest b t r hc hf hl =>
    have hi : (s.placeOf i) = some (false, c) := hs'.place (by rw [State.queueAt_forward hc, hf]; exact List.mem_cons_self ..)
    have ht : t.channel = c := by simpa [State.placeOf, hl, Life.place] using hi
    rw [State.queueLaw_iff, State.placeOf_setLife, State.queueAt_of_chans (State.setLife_chans ..), State.queueAt_setActive]
    have hstep := (hs'.leave ((State.queueAt_forward hc).trans hf)).join (x := (true, c)) (i := i) (by simp)
    simpa [Function.update_idem, State.queueAt_returns hc, Life.place, ht] using hstep
  | @dropStray c a i rest hc hf hl =>
    have hi : (s.placeOf i) = some (false, c) := hs'.place (by rw [State.queueAt_forward hc, hf]; exact List.mem_cons_self ..)
    exact absurd ((Desc.queuedOn_iff _ _).2 hi) (by simp [Desc.queuedOn, hl])
  | close hc =>
    exact State.queueLaw_of_eq hs (State.queueAt_setChan_same (by simp [hc, Chan.queue])) rfl
  | unbind hc h0 =>
    exact State.queueLaw_of_eq hs (State.queueAt_setChan_same fun back => (State.queue_of_inTransit h0 back).symm) rfl
  | unoffer hc => exact State.queueLaw_of_eq hs (State.queueAt_setChan_same (by simp [hc, Chan.queue])) rfl
  | leaveWaits hc => exact State.queueLaw_of_eq hs (State.queueAt_setChan_same (by simp [hc, Chan.queue])) rfl
  | joinTakes hc => exact State.queueLaw_of_eq hs (State.queueAt_setChan_same (by simp [hc, Chan.queue])) rfl
  | joinCollects hc => exact State.queueLaw_of_eq hs (State.queueAt_setChan_same (by simp [hc, Chan.queue])) rfl
  | dropAlloc p tag =>
    exact State.queueLaw_of_eq hs (State.queueAt_of_chans (s.dropAllocWait_chans p tag))
      (State.placeOf_of_descs (s.dropAllocWait_descs p tag))
  | @damage i b hb =>
    refine State.queueLaw_of_eq hs rfl (funext fun j => ?_)
    rw [State.placeOf, State.desc_setDesc]
    split_ifs with hij
    · subst hij
      cases hl : (s.desc i).life <;> simp [State.placeOf, Desc.withDamage, Life.place, hl]
    · rfl
  | renew hl =>
    rw [State.queueLaw_iff, State.placeOf_setLife]
    exact hs'.stay (by simp [State.placeOf, hl, Life.place])
  | @endTest x y pass hx hy =>
    exact State.queueLaw_of_eq hs (State.queueAt_of_chans (s.takeResult_chans x.block pass))
      (State.placeOf_of_descs (s.takeResult_descs x.block pass))
  | upset w flips cells level =>
    exact State.queueLaw_of_eq hs (State.queueAt_of_chans (s.noteUpset_chans w flips cells level))
      (State.placeOf_of_descs (by rw [noteUpset_frame s w flips cells]; rfl))
  | @depart p ho =>
    refine State.queueLaw_of_eq hs (State.queueAt_of_passing fun c back => ?_) (State.placeOf_of_descs (s.dropHoldings_descs p))
    rw [State.dropHoldings_chan, Chan.queue_dropWaits]
  | _ => exact State.queueLaw_of_eq hs (State.queueAt_of_chans rfl) (State.placeOf_of_descs rfl)

theorem Shift.queueLaw {k : Option ChanIx} {s t : State} (h : Shift k s t) (hs : s.queueLaw) : t.queueLaw := by
  have hs' := State.queueLaw_iff.1 hs
  cases h with
  | @allocate p n i ho hi =>
    rw [State.queueLaw_iff, State.placeOf_of_descs (s.allocTo_descs p n i), State.placeOf_setLife,
      State.queueAt_of_chans (s.allocTo_chans p n i)]
    exact hs'.stay (Life.place_of_buf (by rw [show (Desc.mk 0 (s.desc i).life).state = .free from hi]; simp)
      (by rw [show (Desc.mk 0 (s.desc i).life).state = .free from hi]; simp))
  | @post c a i _ _ hc _ _ hl _ ht =>
    have hi : s.placeOf i = none := by simp [State.placeOf, hl, Life.place]
    rw [State.queueLaw_iff, State.placeOf_setLife, State.queueAt_of_chans (State.setLife_chans ..),
      State.queueAt_setForward hc]
    · simpa [State.queueAt_forward hc, Life.place, ht] using hs'.join (x := (false, c)) hi
    · rfl
  | postTaken hc _ _ hl =>
    rw [State.queueLaw_iff, State.placeOf_setLife, State.queueAt_of_chans (State.setLife_chans ..),
      State.queueAt_setChan_same (by simp [hc, Chan.queue])]
    exact hs'.stay (by simp [State.placeOf, hl, Life.place])
  | take hc hf =>
    rw [State.queueLaw_iff, State.placeOf_setLife, State.queueAt_of_chans (State.setLife_chans ..),
      State.queueAt_setForward hc]
    · exact hs'.leave ((State.queueAt_forward hc).trans hf)
    · rfl
  | collect hc hf =>
    rw [State.queueLaw_iff, State.placeOf_setLife, State.queueAt_of_chans (State.setLife_chans ..),
      State.queueAt_setReturns hc]
    · exact hs'.leave ((State.queueAt_returns hc).trans hf)
    · rfl
  | comeCollect hl hc =>
    rw [State.queueLaw_iff, State.placeOf_setLife, State.queueAt_of_chans (State.setLife_chans ..),
      State.queueAt_setChan_same (by simp [hc, Chan.queue])]
    exact hs'.stay (by simp [State.placeOf, hl, Life.place])
  | @comeReturn a i _ t _ _ _ hl hc =>
    have hi : s.placeOf i = none := by simp [State.placeOf, hl, Life.place]
    rw [State.queueLaw_iff, State.placeOf_setLife, State.queueAt_of_chans (State.setLife_chans ..),
      State.queueAt_setReturns hc]
    · simpa [State.queueAt_returns hc, Life.place] using hs'.join (x := (true, t.channel)) hi
    · rfl
  | refill hl =>
    rw [State.queueLaw_iff, State.placeOf_setLife]
    exact hs'.stay (by simp [State.placeOf, hl, Life.place])

theorem Bind.queueLaw {s t : State} (h : Bind s t) (hs : s.queueLaw) : t.queueLaw := by
  cases h with
  | offer hc => exact State.queueLaw_of_eq hs (State.queueAt_setChan_same (by simp [hc, Chan.queue])) rfl
  | accept hc =>
    exact State.queueLaw_of_eq hs (State.queueAt_setChan_same (by simp [hc, Chan.queue, Active.opened])) rfl

/-! ### Descriptors in transit -/

/-- The origin, the channel and, while HELD, the holder of a descriptor in transit. -/
def Life.transit : Life → Option (Port × ChanIx × Option Port)
  | .queued b t | .returning b t _ => some (b.origin, t.channel, none)
  | .held b t p _ _ => some (b.origin, t.channel, some p)
  | .free | .filling _ | .collected _ _ _ => none

theorem State.transitLaw_iff {s : State} : s.transitLaw ↔ ∀ i o c h, (s.desc i).life.transit = some (o, c, h) →
    ∃ a : Active, s.chan c = .active a ∧ a.params.producer = o ∧ ∀ p, h = some p → p = a.params.consumer := by
  refine forall_congr' fun i => ?_
  cases hl : (s.desc i).life <;>
    simp [Desc.buf, Desc.traffic, Desc.state, Desc.holder, Life.transit, hl, Chan.active?_eq_some]

/-- The record says that the descriptor is in transit on channel `c`. -/
def Life.inTransitOn (l : Life) (c : ChanIx) : Bool := l.transit.any (fun x => decide (x.2.1 = c))

theorem countP_add_countP_of_exclusive {l : List DescIx} {p q r : DescIx → Bool}
    (h : ∀ i, (p i).toNat + (q i).toNat = (r i).toNat) : l.countP p + l.countP q = l.countP r := by
  induction l with
  | nil => rfl
  | cons i rest ih =>
    have hi := h i
    simp only [List.countP_cons]
    cases hp : p i <;> cases hq : q i <;> cases hr : r i <;> simp_all <;> omega

theorem State.descs_toList (s : State) : s.descs.toList = (List.finRange 128).map s.desc := by
  apply List.ext_getElem
  · simp
  · intro n h1 h2
    simp [State.desc]

/-- The members of a queue, counted. -/
theorem State.queueLaw.length {s : State} (hs : s.queueLaw) (x : Bool × ChanIx) :
    (s.queueAt x).length = (List.finRange 128).countP (fun i => decide (s.placeOf i = some x)) := by
  obtain ⟨hn, hm⟩ := nodup_and_mem_iff_count.2 (State.queueLaw_iff.1 hs x)
  rw [List.countP_eq_length_filter]
  refine List.Perm.length_eq ((List.perm_ext_iff_of_nodup hn ((List.nodup_finRange 128).filter _)).2 fun i => ?_)
  simp [hm]

/-- The in-transit count is the number of the descriptors whose record says so (R42). -/
theorem State.queueLaw.inTransit {s : State} (hs : s.queueLaw) (c : ChanIx) :
    s.inTransit c = (List.finRange 128).countP (fun i => (s.desc i).life.inTransitOn c) := by
  rw [State.inTransit, State.forwardCount_eq, State.returnCount_eq, State.forward_eq, State.returns_eq, hs.length, hs.length,
    State.heldCount, s.descs_toList, List.countP_map]
  rw [countP_add_countP_of_exclusive (r := fun i => decide (s.placeOf i = some (false, c)) || (s.desc i).heldOn c),
    countP_add_countP_of_exclusive]
  · intro i
    cases hl : (s.desc i).life <;>
      simp [State.placeOf, Life.place, Life.inTransitOn, Life.transit, Desc.heldOn, Desc.state, Desc.traffic, beq_eq_decide, hl]
  · intro i
    cases hl : (s.desc i).life <;>
      simp [State.placeOf, Life.place, Desc.heldOn, Desc.state, Desc.traffic, beq_eq_decide, hl]

end Sys2Proof.Machine

/-!
PROOFS. What is in transit. A move lets a descriptor stay in transit as it is, or takes it out of transit on the channel that
its event drains; so the count falls, a channel keeps a buffer in transit while it is CLOSING and not drained, and only a post
raises the count, below the depth limit (R42, R56).
-/

namespace Sys2Proof.Machine

/-! ### What a move does to a descriptor in transit -/

/-- The descriptor is in transit as before, or has left the channel that the event drains. -/
def Life.settles (k : Option ChanIx) (l l' : Life) : Prop :=
  l'.transit = l.transit ∨ l'.transit = none ∧ ∀ c, l.inTransitOn c = true → k = some c

/-- Every descriptor is in transit as before, or has left the channel that the event drains. -/
def State.transitsSettle (k : Option ChanIx) (s t : State) : Prop :=
  ∀ i, (s.desc i).life.settles k (t.desc i).life

section
variable {k : Option ChanIx} {s t : State} {i : DescIx}

theorem Life.inTransitOn_of_none {l : Life} (h : l.transit = none) (c : ChanIx) : l.inTransitOn c = false := by
  simp [Life.inTransitOn, h]

theorem Life.settles.inTransitOn {l l' : Life} (h : l.settles k l') {c : ChanIx} (hc : l'.inTransitOn c = true) :
    l.inTransitOn c = true := by
  obtain h | ⟨h, _⟩ := h
  · rwa [Life.inTransitOn, h] at hc
  · rw [Life.inTransitOn_of_none h] at hc
    exact absurd hc (by simp)

theorem Life.settles.still {l l' : Life} (h : l.settles k l') {c : ChanIx} (hk : k ≠ some c)
    (hc : l.inTransitOn c = true) : l'.inTransitOn c = true := by
  obtain h | ⟨_, h⟩ := h
  · rwa [Life.inTransitOn, h]
  · exact absurd (h c hc) hk

theorem State.transitsSettle_of_descs (h : t.descs = s.descs) : s.transitsSettle k t := fun i => by
  rw [State.desc_of_descs h]
  exact .inl rfl

theorem State.transitsSettle_setLife {l : Life} (h : (s.desc i).life.settles k l) : s.transitsSettle k (s.setLife i l) :=
  fun j => by
    rw [State.desc_setLife]
    split_ifs with hij
    · exact hij ▸ h
    · exact .inl rfl

/-- A descriptor becomes FREE that is in transit, if at all, on the channel that the event drains. -/
theorem State.transitsSettle_freeDesc (h : ∀ c, (s.desc i).life.inTransitOn c = true → k = some c) :
    s.transitsSettle k (s.freeDesc i) := fun j => by
  by_cases hij : i = j
  · subst hij
    by_cases hb : (s.desc i).buf = none
    · simp only [State.freeDesc, hb]
      exact .inl rfl
    · rw [s.freeDesc_desc_same i hb]
      exact .inr ⟨rfl, h⟩
  · rw [s.freeDesc_desc_ne hij]
    exact .inl rfl

/-- A descriptor with a place is in transit on the channel of its place. -/
theorem Life.place.channel {l : Life} {x : Bool × ChanIx} (h : l.place = some x) {c : ChanIx}
    (hc : l.inTransitOn c = true) : x.2 = c := by
  cases l <;> simp_all [Life.place, Life.inTransitOn, Life.transit]
  all_goals
    subst h
    rfl

/-- The head of a queue is in transit on the channel of that queue. -/
theorem State.queueLaw.head_channel (hs : s.queueLaw) {x : Bool × ChanIx} {rest : List DescIx}
    (hx : s.queueAt x = i :: rest) {c : ChanIx} (hc : (s.desc i).life.inTransitOn c = true) : x.2 = c :=
  Life.place.channel ((State.queueLaw_iff.1 hs).place (by rw [hx]; exact List.mem_cons_self ..)) hc

/-- The record of the head of a forward queue names the queue's channel. -/
theorem State.queueLaw.head_traffic (hs : s.queueLaw) {c : ChanIx} {a : Active} {rest : List DescIx} {b : Buf}
    {t : Traffic} (hc : s.chan c = .active a) (hf : a.forward = i :: rest) (hl : (s.desc i).life = .queued b t) :
    t.channel = c :=
  (hs.head_channel (x := (false, c)) ((State.queueAt_forward hc).trans hf)
    (by simp [Life.inTransitOn, Life.transit, hl])).symm

/-- The record of the head of a return queue names the queue's channel. -/
theorem State.queueLaw.head_returning (hs : s.queueLaw) {c : ChanIx} {a : Active} {rest : List DescIx} {b : Buf}
    {t : Traffic} {r : Came} (hc : s.chan c = .active a) (hf : a.returns = i :: rest)
    (hl : (s.desc i).life = .returning b t r) : t.channel = c :=
  (hs.head_channel (x := (true, c)) ((State.queueAt_returns hc).trans hf)
    (by simp [Life.inTransitOn, Life.transit, hl])).symm

theorem Desc.inTransitOn_of_not_queued {d : Desc} (hq : d.state ≠ .queued) (hr : d.state ≠ .returning) (c : ChanIx) :
    d.life.inTransitOn c = d.heldOn c := by
  cases hl : d.life <;>
    simp_all [Desc.state, Life.inTransitOn, Life.transit, Desc.heldOn, Desc.traffic]

theorem Life.transit_withDamage (d : Desc) : d.withDamage.life.transit = d.life.transit := by
  cases hl : d.life <;> simp [Desc.withDamage, Life.transit, hl]

end

theorem Move.transitsSettle {k : Option ChanIx} {s t : State} (h : Move k s t) (hs : s.queueLaw) :
    s.transitsSettle k t := by
  cases h with
  | tells h => exact State.transitsSettle_of_descs h.descs
  | free hq hr hk =>
    exact State.transitsSettle_freeDesc fun c hc => hk c (by rwa [Desc.inTransitOn_of_not_queued hq hr] at hc)
  | @freeForward c a i rest hc hf hk =>
    exact State.transitsSettle_freeDesc (s := s.setChan ..) fun d hd =>
      hk.trans (congrArg some (hs.head_channel (x := (false, c)) ((State.queueAt_forward hc).trans hf) hd))
  | @freeReturn c a i rest hc hf hk =>
    exact State.transitsSettle_freeDesc (s := s.setChan ..) fun d hd =>
      hk.trans (congrArg some (hs.head_channel (x := (true, c)) ((State.queueAt_returns hc).trans hf) hd))
  | @bounceCollect c a i rest w ws b t r hc hf hl hw ho hk =>
    exact State.transitsSettle_setLife (s := s.setChan ..) (.inr ⟨rfl, fun d hd =>
      hk.trans (congrArg some (hs.head_channel (x := (false, c)) ((State.queueAt_forward hc).trans hf) hd))⟩)
  | bounceReturn hc hf hl =>
    exact State.transitsSettle_setLife (s := s.setChan ..) (.inl (by simp [Life.transit, hl]))
  | dropAlloc p tag => exact State.transitsSettle_of_descs (s.dropAllocWait_descs p tag)
  | damage =>
    intro j
    rw [State.desc_setDesc]
    split_ifs with hij
    · exact .inl (hij ▸ Life.transit_withDamage _)
    · exact .inl rfl
  | renew hl => exact State.transitsSettle_setLife (.inl (by simp [Life.transit, hl]))
  | @endTest x y pass hx hy => exact State.transitsSettle_of_descs (s.takeResult_descs x.block pass)
  | upset w flips cells level => exact State.transitsSettle_of_descs (by rw [noteUpset_frame s w flips cells]; rfl)
  | @depart p ho => exact State.transitsSettle_of_descs (s.dropHoldings_descs p)
  | _ => exact State.transitsSettle_of_descs rfl

/-- Every open channel stays open with its kind, ends and limits. -/
def State.channelsStay (s t : State) : Prop :=
  ∀ c a, s.chan c = .active a → ∃ b, t.chan c = .active b ∧ b.params = a.params

theorem State.channelsStay_of_chans {s t : State} (h : t.chans = s.chans) : s.channelsStay t := fun c a hc =>
  ⟨a, by rwa [State.chan, h], rfl⟩

theorem State.channelsStay_setActive {s : State} {c : ChanIx} {a b : Active} (hc : s.chan c = .active a)
    (hb : b.params = a.params) : s.channelsStay (s.setChan c (.active b)) := fun d a' hd => by
  rw [State.chan_setChan]
  split_ifs with hcd
  · subst hcd
    exact ⟨b, rfl, hb.trans (congrArg Active.params (Chan.active.inj (hc.symm.trans hd)))⟩
  · exact ⟨a', hd, rfl⟩

/-- A channel that was not open changes. -/
theorem State.channelsStay_setChan {s : State} {c : ChanIx} (hc : ∀ a, s.chan c ≠ .active a) (x : Chan) :
    s.channelsStay (s.setChan c x) := fun d a hd => by
  rw [State.chan_setChan]
  split_ifs with hcd
  · exact absurd hd (hcd ▸ hc a)
  · exact ⟨a, hd, rfl⟩

theorem State.channelsStay.of_chans {s t u : State} (h : s.channelsStay t) (e : u.chans = t.chans) : s.channelsStay u :=
  fun c a hc => by
    obtain ⟨b, hb, hm⟩ := h c a hc
    exact ⟨b, by rwa [State.chan, e], hm⟩

/-- A move keeps every open channel open, but for one with nothing in transit that unbinds. -/
theorem Move.channelsStay_or_unbinds {k : Option ChanIx} {s t : State} (h : Move k s t) :
    s.channelsStay t ∨ ∃ c, s.inTransit c = 0 ∧ t = s.setChan c .unbound := by
  cases h with
  | tells h => exact .inl (State.channelsStay_of_chans h.chans)
  | free => exact .inl (State.channelsStay_of_chans (State.freeDesc_chans ..))
  | freeForward hd =>
    refine .inl (State.channelsStay.of_chans ?_ (State.freeDesc_chans ..))
    exact State.channelsStay_setActive hd rfl
  | freeReturn hd =>
    refine .inl (State.channelsStay.of_chans ?_ (State.freeDesc_chans ..))
    exact State.channelsStay_setActive hd rfl
  | bounceCollect hd => exact .inl (State.channelsStay_setActive hd rfl)
  | bounceReturn hd => exact .inl (State.channelsStay_setActive hd rfl)
  | dropStray hd => exact .inl (State.channelsStay_setActive hd rfl)
  | close hd => exact .inl (State.channelsStay_setActive hd rfl)
  | unbind hd h0 => exact .inr ⟨_, h0, rfl⟩
  | unoffer hd => exact .inl (State.channelsStay_setChan (by simp [hd]) _)
  | leaveWaits hd => exact .inl (State.channelsStay_setActive hd rfl)
  | joinTakes hd => exact .inl (State.channelsStay_setActive hd rfl)
  | joinCollects hd => exact .inl (State.channelsStay_setActive hd rfl)
  | dropAlloc p tag => exact .inl (State.channelsStay_of_chans (s.dropAllocWait_chans p tag))
  | @endTest x y pass hx hy => exact .inl (State.channelsStay_of_chans (s.takeResult_chans x.block pass))
  | upset w flips cells level => exact .inl (State.channelsStay_of_chans (s.noteUpset_chans w flips cells level))
  | depart =>
    refine .inl fun c a hc => ?_
    rw [State.dropHoldings_chan, hc]
    exact ⟨_, rfl, rfl⟩
  | _ => exact .inl (State.channelsStay_of_chans rfl)

theorem Move.channelsStay {k : Option ChanIx} {s t : State} (h : Move k s t) {c : ChanIx} {a : Active}
    (hc : s.chan c = .active a) : (∃ b, t.chan c = .active b ∧ b.params = a.params) ∨ s.inTransit c = 0 := by
  obtain hstay | ⟨d, h0, rfl⟩ := h.channelsStay_or_unbinds
  · exact .inl (hstay c a hc)
  · by_cases hdc : d = c
    · exact .inr (hdc ▸ h0)
    · exact .inl ⟨a, (State.chan_setChan_ne s .unbound hdc).trans hc, rfl⟩

theorem Shift.channelsStay {k : Option ChanIx} {s t : State} (h : Shift k s t) : s.channelsStay t := by
  cases h with
  | allocate => exact State.channelsStay_of_chans (State.allocTo_chans ..)
  | post hd => exact State.channelsStay_setActive hd rfl
  | postTaken hd => exact State.channelsStay_setActive hd rfl
  | take hd => exact State.channelsStay_setActive hd rfl
  | collect hd => exact State.channelsStay_setActive hd rfl
  | comeCollect _ hd => exact State.channelsStay_setActive hd rfl
  | comeReturn _ hd => exact State.channelsStay_setActive hd rfl
  | refill => exact State.channelsStay_of_chans rfl

theorem Bind.channelsStay {s t : State} (h : Bind s t) : s.channelsStay t := by
  cases h with
  | offer hd => exact State.channelsStay_setChan (by simp [hd]) _
  | accept hd => exact State.channelsStay_setChan (by simp [hd]) _

/-! ### The ends of a descriptor in transit -/

/-- The ends that a record in transit names are those of its open channel. -/
def State.endsAgree (s : State) (x : Port × ChanIx × Option Port) : Prop :=
  ∃ a : Active, s.chan x.2.1 = .active a ∧ a.params.producer = x.1 ∧ ∀ p, x.2.2 = some p → p = a.params.consumer

theorem State.transitLaw_iff' {s : State} :
    s.transitLaw ↔ ∀ i x, (s.desc i).life.transit = some x → s.endsAgree x := by
  rw [State.transitLaw_iff]
  exact ⟨fun h i ⟨o, c, p⟩ hx => h i o c p hx, fun h i o c p hx => h i (o, c, p) hx⟩

theorem State.channelsStay.endsAgree {s t : State} (h : s.channelsStay t) {x : Port × ChanIx × Option Port}
    (hx : s.endsAgree x) : t.endsAgree x := by
  obtain ⟨a, hc, hp, hh⟩ := hx
  obtain ⟨b, hb, hm⟩ := h _ _ hc
  exact ⟨b, hb, by rw [hm, hp], by rwa [hm]⟩

/-- A descriptor in transit on a channel is counted there. -/
theorem State.queueLaw.inTransit_pos {s : State} (hs : s.queueLaw) {i : DescIx} {c : ChanIx}
    (h : (s.desc i).life.inTransitOn c = true) : 0 < s.inTransit c := by
  rw [hs.inTransit]
  exact List.countP_pos_iff.2 ⟨i, List.mem_finRange i, h⟩

theorem Life.inTransitOn_of_transit {l : Life} {x : Port × ChanIx × Option Port} (h : l.transit = some x) :
    l.inTransitOn x.2.1 = true := by
  simp [Life.inTransitOn, h]

/-- One descriptor comes to be in transit between ends that agree, or is in transit no longer. -/
theorem State.transitLaw_setLife {s u : State} {i : DescIx} {l : Life} (hs : s.transitLaw) (hd : u.descs = s.descs)
    (hc : s.channelsStay u) (hl : ∀ x, l.transit = some x → s.endsAgree x) : (u.setLife i l).transitLaw := by
  have hset : u.channelsStay (u.setLife i l) := State.channelsStay_of_chans rfl
  rw [State.transitLaw_iff'] at hs ⊢
  intro j x hx
  refine hset.endsAgree (hc.endsAgree ?_)
  rw [State.desc_setLife] at hx
  split_ifs at hx with hij
  · exact hl x hx
  · rw [State.desc_of_descs hd] at hx
    exact hs j x hx

theorem Move.transitLaw {k : Option ChanIx} {s t : State} (h : Move k s t) (hq : s.queueLaw) (hs : s.transitLaw) :
    t.transitLaw := by
  have hsettle := h.transitsSettle hq
  rw [State.transitLaw_iff'] at hs ⊢
  intro i x hx
  obtain he | ⟨hn, _⟩ := hsettle i
  · rw [he] at hx
    obtain ⟨a, hc, hp, hh⟩ := hs i x hx
    obtain ⟨b, hb, hm⟩ | h0 := h.channelsStay hc
    · exact ⟨b, hb, by rw [hm, hp], by rwa [hm]⟩
    · exact absurd h0 (hq.inTransit_pos (Life.inTransitOn_of_transit hx)).ne'
  · rw [hn] at hx
    exact nomatch hx

theorem Shift.transitLaw {k : Option ChanIx} {s t : State} (h : Shift k s t) (hq : s.queueLaw) (hs : s.transitLaw) :
    t.transitLaw := by
  have hs' := State.transitLaw_iff'.1 hs
  cases h with
  | @allocate p n i =>
    have hdescs := s.allocTo_descs p n i
    have hchans := s.allocTo_chans p n i
    have hlife : (s.setLife i (.filling ⟨p, s.freeList.take n, false⟩)).transitLaw :=
      State.transitLaw_setLife hs rfl (State.channelsStay_of_chans rfl) fun x hx => nomatch hx
    rw [State.transitLaw_iff'] at hlife ⊢
    intro j x hx
    rw [State.desc_of_descs hdescs] at hx
    exact (State.channelsStay_of_chans hchans).endsAgree (hlife j x hx)
  | @post c a i b t hc _ _ _ hb ht =>
    refine State.transitLaw_setLife (u := s.setChan ..) hs rfl (State.channelsStay_setActive hc rfl) ?_
    rintro x ⟨⟩
    exact ⟨a, ht ▸ hc, hb.symm, fun p hp => nomatch hp⟩
  | @postTaken c a i b t w ws hc _ _ _ hb ht =>
    refine State.transitLaw_setLife (u := s.setChan ..) hs rfl (State.channelsStay_setActive hc rfl) ?_
    rintro x ⟨⟩
    exact ⟨a, ht ▸ hc, hb.symm, fun p hp => (Option.some.inj hp).symm⟩
  | @take c a i rest b t hc hf hl =>
    have ht := hq.head_traffic hc hf hl
    refine State.transitLaw_setLife (u := s.setChan ..) hs rfl (State.channelsStay_setActive hc rfl) ?_
    rintro x ⟨⟩
    obtain ⟨a', hc', hp, _⟩ := hs' i (b.origin, t.channel, none) (by simp [Life.transit, hl])
    obtain rfl : a = a' := Chan.active.inj (hc.symm.trans (ht ▸ hc'))
    exact ⟨a, hc', hp, fun p hp => (Option.some.inj hp).symm⟩
  | collect hc =>
    exact State.transitLaw_setLife (u := s.setChan ..) hs rfl (State.channelsStay_setActive hc rfl) fun x hx => nomatch hx
  | comeCollect _ hc =>
    exact State.transitLaw_setLife (u := s.setChan ..) hs rfl (State.channelsStay_setActive hc rfl) fun x hx => nomatch hx
  | @comeReturn a i b t p _ _ hl hc =>
    refine State.transitLaw_setLife (u := s.setChan ..) hs rfl (State.channelsStay_setActive hc rfl) ?_
    rintro x ⟨⟩
    obtain ⟨a', hc', hp, _⟩ := hs' i (b.origin, t.channel, some p) (by simp [Life.transit, hl])
    exact ⟨a', hc', hp, fun p hp => nomatch hp⟩
  | refill =>
    exact State.transitLaw_setLife hs rfl (State.channelsStay_of_chans rfl) fun x hx => nomatch hx

theorem Bind.transitLaw {s t : State} (h : Bind s t) (hs : s.transitLaw) : t.transitLaw := by
  have hdescs : t.descs = s.descs := by cases h <;> rfl
  rw [State.transitLaw_iff'] at hs ⊢
  intro i x hx
  rw [State.desc_of_descs hdescs] at hx
  exact h.channelsStay.endsAgree (hs i x hx)

/-! ### Queues and ends together -/

/-- Queues and records agree, and records in transit name the ends of an open channel (R11, R4, R67). -/
def State.trafficLaw (s : State) : Prop := s.queueLaw ∧ s.transitLaw

theorem Move.trafficLaw {k : Option ChanIx} {s t : State} (h : Move k s t) (hs : s.trafficLaw) : t.trafficLaw :=
  have ⟨hq, ht⟩ := hs
  ⟨h.queueLaw hq, h.transitLaw hq ht⟩

theorem Shift.trafficLaw {k : Option ChanIx} {s t : State} (h : Shift k s t) (hs : s.trafficLaw) : t.trafficLaw :=
  have ⟨hq, ht⟩ := hs
  ⟨h.queueLaw hq, h.transitLaw hq ht⟩

theorem Run.trafficLaw {s t : State} (h : Run s t) (hs : s.trafficLaw) : t.trafficLaw :=
  h.keeps (P := State.trafficLaw) (fun _ _ _ => Move.trafficLaw) (fun _ _ _ => Shift.trafficLaw)
    (fun _ _ h ⟨hq, ht⟩ => ⟨h.queueLaw hq, h.transitLaw ht⟩) hs

/-- Whatever leaves the channels open that are, every queue as it is, and every descriptor in its place and in transit as it
is. -/
theorem State.trafficLaw_of_eq {s t : State} (hs : s.trafficLaw) (hq : t.queueAt = s.queueAt)
    (hp : t.placeOf = s.placeOf) (hc : s.channelsStay t)
    (hd : ∀ i, (t.desc i).life.transit = (s.desc i).life.transit) : t.trafficLaw := by
  obtain ⟨hqueue, htransit⟩ := hs
  refine ⟨State.queueLaw_of_eq hqueue hq hp, ?_⟩
  rw [State.transitLaw_iff'] at htransit ⊢
  intro i x hx
  rw [hd] at hx
  exact hc.endsAgree (htransit i x hx)

/-- Whatever leaves the channels and descriptors alone. -/
theorem State.trafficLaw_of_records {s t : State} (hs : s.trafficLaw) (hc : t.chans = s.chans) (hd : t.descs = s.descs) :
    t.trafficLaw :=
  State.trafficLaw_of_eq hs (State.queueAt_of_chans hc) (State.placeOf_of_descs hd) (State.channelsStay_of_chans hc)
    fun i => by rw [State.desc_of_descs hd]

theorem Desc.place_count (d : Desc) : d.count.life.place = d.life.place := by
  unfold Desc.count
  split
  next h => simp [Life.place, h]
  all_goals rfl

theorem Desc.transit_count (d : Desc) : d.count.life.transit = d.life.transit := by
  unfold Desc.count
  split
  next h => simp [Life.transit, h]
  all_goals rfl

theorem State.tickOnce_desc {s : State} (h : s.resetIn = false) (i : DescIx) : s.tickOnce.desc i = (s.desc i).count := by
  rw [State.desc_tickOnce, h]
  rfl

theorem State.tickOnce_chan {s : State} (h : s.resetIn = false) (c : ChanIx) : s.tickOnce.chan c = (s.chan c).count := by
  rw [State.tickOnce_eq h]
  simp [State.chan]

theorem State.tickOnce_queueAt {s : State} (h : s.resetIn = false) : s.tickOnce.queueAt = s.queueAt :=
  State.queueAt_of_passing fun c back => by
    rw [State.tickOnce_chan h]
    cases s.chan c <;> rfl

theorem State.tickOnce_trafficLaw {s : State} (h : s.resetIn = false) (hs : s.trafficLaw) : s.tickOnce.trafficLaw := by
  refine State.trafficLaw_of_eq hs (State.tickOnce_queueAt h) (funext fun i => ?_) (fun c a hc => ?_) fun i => ?_
  · rw [State.placeOf, State.tickOnce_desc h, Desc.place_count]
    rfl
  · rw [State.tickOnce_chan h, hc]
    exact ⟨_, rfl, rfl⟩
  · rw [State.tickOnce_desc h, Desc.transit_count]

/-- A re-examination fills FREE descriptors, none of which is in transit. -/
theorem State.reexamine_trafficLaw {s : State} (hs : s.trafficLaw) : s.reexamine.trafficLaw := by
  have hfree {d d' : Desc} (h : d.state = .free) (h' : d'.state = .filling) :
      d'.life.place = d.life.place ∧ d'.life.transit = d.life.transit := by
    rw [Desc.state_eq_free_iff] at h
    cases hl : d'.life <;> simp_all [Desc.state, Life.place, Life.transit]
  have hdesc (i : DescIx) : (s.reexamine.desc i).life.place = (s.desc i).life.place ∧
      (s.reexamine.desc i).life.transit = (s.desc i).life.transit := by
    obtain h | ⟨h, h'⟩ := s.reexamine_desc i
    · rw [h]
      exact ⟨rfl, rfl⟩
    · exact hfree h h'
  exact State.trafficLaw_of_eq hs (State.queueAt_of_chans s.reexamine_chans) (funext fun i => (hdesc i).1)
    (State.channelsStay_of_chans s.reexamine_chans) fun i => (hdesc i).2

theorem State.deviceReset_chan (s : State) (c : ChanIx) : s.deviceReset.chan c = .unbound := by
  simp [State.deviceReset, State.reset, State.chan]

theorem State.deviceReset_desc (s : State) (i : DescIx) : s.deviceReset.desc i = ⟨0#8, .free⟩ := by
  simp [State.deviceReset, State.reset, State.desc]

theorem State.deviceReset_trafficLaw (s : State) : s.deviceReset.trafficLaw := by
  refine ⟨State.queueLaw_iff.2 fun x i => ?_, State.transitLaw_iff'.2 fun i x hx => ?_⟩
  · simp [State.queueAt, State.placeOf, s.deviceReset_chan, s.deviceReset_desc, Chan.queue, Life.place]
  · rw [s.deviceReset_desc] at hx
    exact nomatch hx

/-- The queues and records stay in agreement through every effect of a command. -/
theorem Effect.trafficLaw {c : Instr} {s t : State} (h : Effect c s t) (hs : s.trafficLaw) : t.trafficLaw := by
  cases h with
  | run h => exact h.trafficLaw hs
  | read _ h ht =>
    obtain ⟨w, l, rfl⟩ := ht
    exact State.trafficLaw_of_records (h.trafficLaw hs) rfl rfl
  | grant _ _ ht => exact State.trafficLaw_of_records hs ht.chans ht.descs
  | reexamine => exact State.reexamine_trafficLaw hs
  | tick h => exact State.tickOnce_trafficLaw h hs
  | walk h =>
    rw [State.walkStep_eq h]
    exact State.trafficLaw_of_records ((run_walkAt s _ _).trafficLaw hs) rfl rfl
  | resetAssert ho h =>
    exact Run.trafficLaw (.calm h) (State.trafficLaw_of_records (Move.trafficLaw (k := none) (.depart ho) hs) rfl rfl)
  | deviceReset => exact s.deviceReset_trafficLaw
  | _ => exact State.trafficLaw_of_records hs rfl rfl

/-- Settles O8: every effect of a command keeps queues and records in agreement. -/
theorem queueLawKept : Obligations.QueueLawKept :=
  fun _ _ _ hqueue htransit hexec => (effect_of_exec hexec).trafficLaw ⟨hqueue, htransit⟩

end Sys2Proof.Machine

/-!
PROOFS. The in-transit count against the depth limit and against CLOSING. Moves only take descriptors out of transit, each on
the channel its event drains; a buffer moved to a new life adds at most one, below the depth limit of an OPEN channel (R42,
R51, R56, R64).
-/

namespace Sys2Proof.Machine

/-! ### The count under a move -/

section
variable {s t : State} {c : ChanIx}

/-- Fewer records in transit on a channel make a lower count. -/
theorem State.inTransit_le (hs : s.queueLaw) (ht : t.queueLaw)
    (h : ∀ i, (t.desc i).life.inTransitOn c = true → (s.desc i).life.inTransitOn c = true) :
    t.inTransit c ≤ s.inTransit c := by
  rw [hs.inTransit, ht.inTransit]
  exact List.countP_mono_left fun i _ => h i

/-- One more record in transit on a channel makes a count higher by one at most. -/
theorem State.inTransit_le_succ (hs : s.queueLaw) (ht : t.queueLaw) {i : DescIx}
    (h : ∀ j, j ≠ i → (t.desc j).life.inTransitOn c = true → (s.desc j).life.inTransitOn c = true) :
    t.inTransit c ≤ s.inTransit c + 1 := by
  rw [hs.inTransit, ht.inTransit]
  calc (List.finRange 128).countP (fun j => (t.desc j).life.inTransitOn c)
      ≤ (List.finRange 128).countP (fun j => (s.desc j).life.inTransitOn c || decide (j = i)) := by
        refine List.countP_mono_left fun j _ hj => ?_
        by_cases hji : j = i
        · simp [hji]
        · simp [h j hji hj]
    _ ≤ (List.finRange 128).countP (fun j => (s.desc j).life.inTransitOn c) +
          (List.finRange 128).countP (fun j => decide (j = i)) := by
        induction List.finRange 128 with
        | nil => simp
        | cons j rest ih =>
          simp only [List.countP_cons]
          cases (s.desc j).life.inTransitOn c <;> cases decide (j = i) <;> simp <;> omega
    _ = _ := by
        congr 1
        exact List.count_eq_one_of_mem (List.nodup_finRange 128) (List.mem_finRange i)

/-- A buffer moved to a new life was in transit before it, or a post below the depth limit of its OPEN channel has put it in
transit there. -/
theorem Shift.comesInTransit {k : Option ChanIx} (h : Shift k s t) :
    (∀ c i, (t.desc i).life.inTransitOn c = true → (s.desc i).life.inTransitOn c = true) ∨
      ∃ d a i, s.chan d = .active a ∧ s.inTransit d < a.params.depthLimit ∧
        ∀ c j, j ≠ i ∨ c ≠ d → (t.desc j).life.inTransitOn c = true → (s.desc j).life.inTransitOn c = true := by
  have hset {u : State} {i : DescIx} {l : Life} (hd : u.descs = s.descs)
      (hl : ∀ c, l.inTransitOn c = true → (s.desc i).life.inTransitOn c = true) (c : ChanIx) (j : DescIx)
      (hj : ((u.setLife i l).desc j).life.inTransitOn c = true) : (s.desc j).life.inTransitOn c = true := by
    rw [State.desc_setLife] at hj
    split_ifs at hj with hij
    · exact hij ▸ hl c hj
    · rwa [State.desc_of_descs hd] at hj
  have hposted {d : ChanIx} {i : DescIx} {l : Life} {x : Chan} (hl : ∀ c, l.inTransitOn c = true → d = c) (c : ChanIx)
      (j : DescIx) (hjc : j ≠ i ∨ c ≠ d) (hj : (((s.setChan d x).setLife i l).desc j).life.inTransitOn c = true) :
      (s.desc j).life.inTransitOn c = true := by
    rw [State.desc_setLife] at hj
    split_ifs at hj with hij
    · obtain hji | hcd := hjc
      · exact absurd hij.symm hji
      · exact absurd (hl c hj).symm hcd
    · exact hj
  cases h with
  | @allocate p n i =>
    refine .inl fun c j hj => ?_
    rw [State.desc_of_descs (s.allocTo_descs p n i)] at hj
    exact hset (l := .filling ⟨p, s.freeList.take n, false⟩) rfl (fun _ h => nomatch h) c j hj
  | post hc _ hd _ _ ht =>
    exact .inr ⟨_, _, _, hc, hd, hposted fun c h => by simpa [Life.inTransitOn, Life.transit, ht] using h⟩
  | postTaken hc _ hd _ _ ht =>
    exact .inr ⟨_, _, _, hc, hd, hposted fun c h => by simpa [Life.inTransitOn, Life.transit, ht] using h⟩
  | take hc hf hl =>
    exact .inl (hset (u := s.setChan ..) rfl fun c h => by simpa [Life.inTransitOn, Life.transit, hl] using h)
  | collect => exact .inl (hset (u := s.setChan ..) rfl fun _ h => nomatch h)
  | comeCollect => exact .inl (hset (u := s.setChan ..) rfl fun _ h => nomatch h)
  | comeReturn hl =>
    exact .inl (hset (u := s.setChan ..) rfl fun c h => by simpa [Life.inTransitOn, Life.transit, hl] using h)
  | refill => exact .inl (hset rfl fun _ h => nomatch h)

/-- A buffer moved to a new life leaves transit on the channel that its event drains alone. -/
theorem Shift.stillInTransit {k : Option ChanIx} (h : Shift k s t) (hq : s.queueLaw) (hk : k ≠ some c) (i : DescIx)
    (hi : (s.desc i).life.inTransitOn c = true) : (t.desc i).life.inTransitOn c = true := by
  have hset {u : State} {j : DescIx} {l : Life} (hd : u.descs = s.descs)
      (hl : (s.desc j).life.inTransitOn c = true → l.inTransitOn c = true) :
      ((u.setLife j l).desc i).life.inTransitOn c = true := by
    rw [State.desc_setLife]
    split_ifs with hij
    · exact hl (hij ▸ hi)
    · rwa [State.desc_of_descs hd]
  cases h with
  | @allocate p n j _ hj =>
    rw [State.desc_of_descs (s.allocTo_descs p n j)]
    exact hset rfl fun h => by simp [(Desc.state_eq_free_iff _).1 hj, Life.inTransitOn, Life.transit] at h
  | post _ _ _ hl =>
    exact hset (u := s.setChan ..) rfl fun h => by simp [hl, Life.inTransitOn, Life.transit] at h
  | postTaken _ _ _ hl =>
    exact hset (u := s.setChan ..) rfl fun h => by simp [hl, Life.inTransitOn, Life.transit] at h
  | take hc hf hl =>
    exact hset (u := s.setChan ..) rfl fun h => by simpa [hl, Life.inTransitOn, Life.transit] using h
  | collect hc hf hl ho hkc =>
    have ht := hq.head_returning hc hf hl
    refine hset (u := s.setChan ..) rfl fun h => absurd ?_ hk
    rw [hl] at h
    simpa [hkc, ← ht, Life.inTransitOn, Life.transit] using h
  | comeCollect hl hc ho hw hkc =>
    refine hset (u := s.setChan ..) rfl fun h => absurd ?_ hk
    rw [hl] at h
    simpa [hkc, Life.inTransitOn, Life.transit] using h
  | comeReturn hl =>
    exact hset (u := s.setChan ..) rfl fun h => by simpa [hl, Life.inTransitOn, Life.transit] using h
  | refill hl => exact hset rfl fun h => by simp [hl, Life.inTransitOn, Life.transit] at h

end

/-! ### The depth limit -/

/-- The in-transit count of an open channel does not exceed its depth limit. -/
def State.depthKept (s : State) : Prop :=
  ∀ c (a : Active), s.chan c = .active a → s.inTransit c ≤ a.params.depthLimit

/-- A channel that is not open has nothing in transit, as the record of a descriptor in transit names an open one. -/
theorem State.trafficLaw.inTransit_closed {s : State} (h : s.trafficLaw) {c : ChanIx} (hc : ∀ a, s.chan c ≠ .active a) :
    s.inTransit c = 0 := by
  obtain ⟨hq, ht⟩ := h
  rw [hq.inTransit, List.countP_eq_zero]
  intro i _ hi
  obtain ⟨x, hx, rfl⟩ : ∃ x, (s.desc i).life.transit = some x ∧ x.2.1 = c := by
    simpa [Life.inTransitOn, Option.any_eq_true] using hi
  obtain ⟨a, ha, _⟩ := State.transitLaw_iff'.1 ht i x hx
  exact hc a ha

theorem State.depthLaw_iff {s : State} (h : s.trafficLaw) : s.depthLaw ↔ s.depthKept := by
  refine forall_congr' fun c => ?_
  cases hc : s.chan c with
  | unbound => simp [Chan.active?, h.inTransit_closed (c := c) (by simp [hc])]
  | offered => simp [Chan.active?, h.inTransit_closed (c := c) (by simp [hc])]
  | active a => simp [Chan.active?]

/-- A channel open after a move was open before it, with the same ends and limits. -/
theorem State.chansPass.active {s t : State} (h : s.chansPass t) {c : ChanIx} {b : Active} (hb : t.chan c = .active b) :
    ∃ a, s.chan c = .active a ∧ b.params = a.params := by
  have hc := h c
  rw [hb] at hc
  cases ha : s.chan c with
  | unbound => simp [ha, Chan.passes] at hc
  | offered => simp [ha, Chan.passes] at hc
  | active a =>
    rw [ha] at hc
    exact ⟨a, rfl, hc.1⟩

/-- Fewer in transit on channels that pass. -/
theorem State.depthKept.of_le {s t : State} (hs : s.depthKept) (hc : s.chansPass t)
    (hle : ∀ c, t.inTransit c ≤ s.inTransit c) : t.depthKept := by
  intro c b hb
  obtain ⟨a, ha, hm⟩ := hc.active hb
  rw [hm]
  exact (hle c).trans (hs c a ha)

theorem Move.inTransit_le {k : Option ChanIx} {s t : State} (h : Move k s t) (hs : s.queueLaw) (c : ChanIx) :
    t.inTransit c ≤ s.inTransit c :=
  State.inTransit_le hs (h.queueLaw hs) fun i => (h.transitsSettle hs i).inTransitOn

theorem Shift.depthKept {k : Option ChanIx} {s t : State} (h : Shift k s t) (hq : s.queueLaw) (hs : s.depthKept) :
    t.depthKept := by
  have ht := h.queueLaw hq
  obtain hall | ⟨d, a, i, hd, hlt, hrest⟩ := h.comesInTransit
  · exact hs.of_le h.chansPass fun c => State.inTransit_le hq ht (hall c)
  · intro c b hb
    obtain ⟨a', ha', hm⟩ := h.chansPass.active hb
    rw [hm]
    by_cases hcd : c = d
    · subst hcd
      obtain rfl : a = a' := Chan.active.inj (hd.symm.trans ha')
      have := State.inTransit_le_succ (c := c) hq ht (fun j hj => hrest c j (.inl hj))
      omega
    · exact (State.inTransit_le hq ht fun j => hrest c j (.inr hcd)).trans (hs c a' ha')

/-! ### CLOSING channels -/

/-- Every CLOSING channel but `k` has a buffer in transit. -/
def State.closingBut (s : State) (k : Option ChanIx) : Prop :=
  ∀ c, k ≠ some c → (s.chan c).state = .closing → 0 < s.inTransit c

theorem State.closingLaw.but {s : State} (h : s.closingLaw) (k : Option ChanIx) : s.closingBut k := fun c _ => h c

theorem State.closingBut.settled {s : State} {k : Option ChanIx} (h : s.closingBut k) (hk : ∀ c, k = some c → s.settled c) :
    s.closingLaw := fun c hc => by
  by_cases hkc : k = some c
  · exact hk c hkc hc
  · exact h c hkc hc

/-- No channel begins to close. -/
def State.closingKept (s t : State) : Prop := ∀ c, (t.chan c).state = .closing → (s.chan c).state = .closing

theorem State.closingKept_of_chans {s t : State} (h : t.chans = s.chans) : s.closingKept t := fun c hc => by
  rwa [State.chan, ← h]

theorem State.closingKept_setChan {s : State} {c : ChanIx} {x : Chan} (h : x.state = .closing → (s.chan c).state = .closing) :
    s.closingKept (s.setChan c x) := fun d hd => by
  rw [State.chan_setChan] at hd
  split_ifs at hd with hcd
  · exact hcd ▸ h hd
  · exact hd

theorem State.closingKept_setActive {s : State} {c : ChanIx} {a b : Active} (hc : s.chan c = .active a)
    (hp : b.closedProducer = a.closedProducer) (hq : b.closedConsumer = a.closedConsumer) :
    s.closingKept (s.setChan c (.active b)) := by
  refine State.closingKept_setChan fun h => ?_
  simpa [hc, Chan.state, hp, hq] using h

theorem State.closingKept.of_chans {s t u : State} (h : s.closingKept t) (e : u.chans = t.chans) : s.closingKept u :=
  fun c hc => h c (by rwa [State.chan, ← e])

/-- A move begins to close a channel only where its event drains it. -/
theorem Move.closing {k : Option ChanIx} {s t : State} (h : Move k s t) {c : ChanIx} (hk : k ≠ some c)
    (hc : (t.chan c).state = .closing) : (s.chan c).state = .closing := by
  cases h with
  | tells h => exact State.closingKept_of_chans h.chans c hc
  | free => exact State.closingKept_of_chans (State.freeDesc_chans ..) c hc
  | freeForward hd =>
    refine State.closingKept.of_chans ?_ (State.freeDesc_chans ..) c hc
    exact State.closingKept_setActive hd rfl rfl
  | freeReturn hd =>
    refine State.closingKept.of_chans ?_ (State.freeDesc_chans ..) c hc
    exact State.closingKept_setActive hd rfl rfl
  | bounceCollect hd => refine State.closingKept_setActive hd ?_ ?_ c hc <;> rfl
  | bounceReturn hd => refine State.closingKept_setActive hd ?_ ?_ c hc <;> rfl
  | dropStray hd => refine State.closingKept_setActive hd ?_ ?_ c hc <;> rfl
  | @close d a x y hd hx hy hxy hkd =>
    have hdc : d ≠ c := fun e => hk (e ▸ hkd)
    rwa [State.chan_setChan_ne s _ hdc] at hc
  | unbind => exact State.closingKept_setChan (x := .unbound) (fun h => nomatch h) c hc
  | unoffer => exact State.closingKept_setChan (x := .unbound) (fun h => nomatch h) c hc
  | leaveWaits hd => refine State.closingKept_setActive hd ?_ ?_ c hc <;> rfl
  | joinTakes hd => refine State.closingKept_setActive hd ?_ ?_ c hc <;> rfl
  | joinCollects hd => refine State.closingKept_setActive hd ?_ ?_ c hc <;> rfl
  | dropAlloc p tag => exact State.closingKept_of_chans (s.dropAllocWait_chans p tag) c hc
  | @endTest x y pass hx hy => exact State.closingKept_of_chans (s.takeResult_chans x.block pass) c hc
  | upset w flips cells level => exact State.closingKept_of_chans (s.noteUpset_chans w flips cells level) c hc
  | depart =>
    rw [State.dropHoldings_chan] at hc
    cases hx : s.chan c <;> simp_all [Chan.dropWaits, Chan.state]
  | _ => exact State.closingKept_of_chans rfl c hc

theorem Shift.closingKept {k : Option ChanIx} {s t : State} (h : Shift k s t) : s.closingKept t := by
  cases h with
  | allocate => exact State.closingKept_of_chans (State.allocTo_chans ..)
  | post hd => exact State.closingKept_setActive hd rfl rfl
  | postTaken hd => exact State.closingKept_setActive hd rfl rfl
  | take hd => exact State.closingKept_setActive hd rfl rfl
  | collect hd => exact State.closingKept_setActive hd rfl rfl
  | comeCollect _ hd => exact State.closingKept_setActive hd rfl rfl
  | comeReturn _ hd => exact State.closingKept_setActive hd rfl rfl
  | refill => exact State.closingKept_of_chans rfl

theorem Move.closingBut {k : Option ChanIx} {s t : State} (h : Move k s t) (hq : s.queueLaw) (hs : s.closingBut k) :
    t.closingBut k := by
  intro c hk hc
  have hpos := hs c hk (h.closing hk hc)
  refine hpos.trans_le (State.inTransit_le (h.queueLaw hq) hq fun i hi => ?_)
  exact (h.transitsSettle hq i).still hk hi

theorem Shift.closingBut {k : Option ChanIx} {s t : State} (h : Shift k s t) (hq : s.queueLaw) (hs : s.closingLaw) :
    t.closingBut k := by
  intro c hk hc
  exact (hs c (h.closingKept c hc)).trans_le
    (State.inTransit_le (h.queueLaw hq) hq fun i hi => h.stillInTransit hq hk i hi)

/-! ### Both laws together -/

/-- The laws of traffic and of the in-transit count (R11, R42, R56). -/
structure State.countLaw (s : State) : Prop where
  traffic : s.trafficLaw
  depth : s.depthKept
  closing : s.closingLaw

theorem Path.countLaw {k : Option ChanIx} {s t : State} (h : Path k s t)
    (hs : s.trafficLaw ∧ s.depthKept ∧ s.closingBut k) (hk : ∀ c, k = some c → t.settled c) : t.countLaw := by
  obtain ⟨htraffic, hdepth, hclosing⟩ : t.trafficLaw ∧ t.depthKept ∧ t.closingBut k := by
    refine h.keeps (P := fun u => u.trafficLaw ∧ u.depthKept ∧ u.closingBut k) (fun u v hm ⟨htr, hd, hcl⟩ => ?_) hs
    have ⟨hq, _⟩ := htr
    exact ⟨hm.trafficLaw htr, hd.of_le hm.chansPass (hm.inTransit_le hq), hm.closingBut hq hcl⟩
  exact ⟨htraffic, hdepth, hclosing.settled hk⟩

theorem Calm.countLaw {s t : State} (h : Calm s t) (hs : s.countLaw) : t.countLaw := by
  induction h with
  | refl => exact hs
  | tail _ he ih =>
    obtain ⟨k, hp, hk⟩ := he
    exact hp.countLaw ⟨ih.traffic, ih.depth, ih.closing.but k⟩ hk

theorem Bind.countLaw {s t : State} (h : Bind s t) (hs : s.countLaw) : t.countLaw := by
  obtain ⟨⟨hq, ht⟩, hdepth, hclosing⟩ := hs
  have hdescs : t.descs = s.descs := by cases h <;> rfl
  have hcount (c : ChanIx) : t.inTransit c = s.inTransit c := by
    simp only [hq.inTransit, (h.queueLaw hq).inTransit, State.desc_of_descs hdescs]
  refine ⟨⟨h.queueLaw hq, h.transitLaw ht⟩, fun c b hb => ?_, fun c hc => ?_⟩
  · rw [hcount]
    by_cases ha : ∃ a, s.chan c = .active a
    · obtain ⟨a, ha⟩ := ha
      obtain ⟨b', hb', hm⟩ := h.channelsStay c a ha
      obtain rfl : b = b' := Chan.active.inj (hb.symm.trans hb')
      rw [hm]
      exact hdepth c a ha
    · rw [State.trafficLaw.inTransit_closed ⟨hq, ht⟩ (fun a hx => ha ⟨a, hx⟩)]
      exact Nat.zero_le _
  · rw [hcount]
    refine hclosing c ?_
    cases h with
    | @offer d m hd _ tag timer => exact State.closingKept_setChan (x := .offered m tag timer) (fun h => nomatch h) c hc
    | accept hd => exact State.closingKept_setChan (fun h => by simp [Chan.state, Active.opened] at h) c hc

theorem State.countLaw_of_records {s t : State} (hs : s.countLaw) (hc : t.chans = s.chans) (hd : t.descs = s.descs) :
    t.countLaw := by
  obtain ⟨htraffic, hdepth, hclosing⟩ := hs
  have hcount (c : ChanIx) : t.inTransit c = s.inTransit c := by
    simp only [State.inTransit, State.forwardCount, State.heldCount, State.returnCount, State.chan, hc, hd]
  have hchan (c : ChanIx) : t.chan c = s.chan c := by simp only [State.chan, hc]
  refine ⟨State.trafficLaw_of_records htraffic hc hd, fun c a ha => ?_, fun c hcl => ?_⟩
  · rw [hcount]
    exact hdepth c a (hchan c ▸ ha)
  · rw [hcount]
    exact hclosing c (hchan c ▸ hcl)

theorem Run.countLaw {s t : State} (h : Run s t) (hs : s.countLaw) : t.countLaw := by
  cases h with
  | calm h => exact h.countLaw hs
  | shift h hp _ hk =>
    obtain ⟨hq, _⟩ := hs.traffic
    exact hp.countLaw ⟨h.trafficLaw hs.traffic, h.depthKept hq hs.depth, h.closingBut hq hs.closing⟩ hk
  | bind h ht => exact State.countLaw_of_records (h.countLaw hs) ht.chans ht.descs

/-- Whatever leaves each channel's state and ends and each descriptor's transit as they are. -/
theorem State.countLaw_of_same {s t : State} (hs : s.countLaw) (ht : t.trafficLaw) (hc : s.chansPass t)
    (hcl : s.closingKept t) (hd : ∀ i, (t.desc i).life.transit = (s.desc i).life.transit) : t.countLaw := by
  obtain ⟨⟨hq, _⟩, hdepth, hclosing⟩ := hs
  have hcount (c : ChanIx) : t.inTransit c = s.inTransit c := by
    simp only [hq.inTransit, ht.1.inTransit, Life.inTransitOn, hd]
  exact ⟨ht, hdepth.of_le hc fun c => (hcount c).le, fun c h => by rw [hcount]; exact hclosing c (hcl c h)⟩

theorem Effect.countLaw {c : Instr} {s t : State} (h : Effect c s t) (hs : s.countLaw) : t.countLaw := by
  have htraffic := h.trafficLaw hs.traffic
  cases h with
  | run h => exact h.countLaw hs
  | read _ h ht =>
    obtain ⟨w, l, rfl⟩ := ht
    exact State.countLaw_of_records (h.countLaw hs) rfl rfl
  | grant _ _ ht => exact State.countLaw_of_records hs ht.chans ht.descs
  | reexamine =>
    refine State.countLaw_of_same hs htraffic (State.chansPass_of_chans s.reexamine_chans)
      (State.closingKept_of_chans s.reexamine_chans) fun i => ?_
    obtain h | ⟨h, h'⟩ := s.reexamine_desc i
    · rw [h]
    · rw [Desc.state_eq_free_iff] at h
      cases hl : (s.reexamine.desc i).life <;> simp_all [Desc.state, Life.transit]
  | tick h =>
    refine State.countLaw_of_same hs htraffic (fun c => ?_) (fun c hc => ?_) fun i => ?_
    · rw [State.tickOnce_chan h]
      exact Chan.passes_count _
    · rw [State.tickOnce_chan h] at hc
      cases hx : s.chan c <;> simp_all [Chan.count, Chan.state]
    · rw [State.tickOnce_desc h, Desc.transit_count]
  | walk h =>
    rw [State.walkStep_eq h]
    exact State.countLaw_of_records ((run_walkAt s _ _).countLaw hs) rfl rfl
  | resetAssert ho h =>
    have hdrop : (s.dropHoldings _).countLaw := Calm.countLaw (Path.one (.depart ho)).calm hs
    exact h.countLaw (State.countLaw_of_records hdrop rfl rfl)
  | deviceReset =>
    exact ⟨htraffic, fun c a ha => by simp [s.deviceReset_chan] at ha, fun c hc => by
      simp [s.deviceReset_chan, Chan.state] at hc⟩
  | _ => exact State.countLaw_of_records hs rfl rfl

/-- Settles O9: every effect of a command keeps the laws of the in-transit count. -/
theorem depthLawKept : Obligations.DepthLawKept := by
  intro c s t hqueue htransit hdepth hclosing hexec
  have htraffic : s.trafficLaw := ⟨hqueue, htransit⟩
  obtain ⟨ht, hd, hc⟩ := (effect_of_exec hexec).countLaw ⟨htraffic, (State.depthLaw_iff htraffic).1 hdepth, hclosing⟩
  exact ⟨(State.depthLaw_iff ht).2 hd, hc⟩

end Sys2Proof.Machine

/-!
PROOFS. Wait lists stand on empty queues, and forward queues hold consecutive sequences. The first is a law of one channel
record at a time (R69, R72). For the second, a forward queue loses its head or gains a tail whose sequence is the channel's
next one (R6, R62).
-/

namespace Sys2Proof.Machine

/-! ### The wait lists of a channel -/

/-- A wait list of the open channel stands only where R69 and R72 let it. -/
def Active.waitOk (a : Active) : Prop :=
  (a.takeWaits ≠ [] → a.forward = [] ∧ a.closedProducer = false ∧ a.closedConsumer = false) ∧
    (a.collectWaits ≠ [] → a.returns = [])

/-- The channel is not open, or its wait lists stand where they may. -/
def Chan.waitOk (x : Chan) : Prop := ∀ a, x = .active a → a.waitOk

theorem State.waitLaw_iff {s : State} : s.waitLaw ↔ ∀ c, (s.chan c).waitOk := by
  simp only [State.waitLaw, Chan.waitOk, Active.waitOk, Chan.active?_eq_some]

theorem Chan.waitOk_active {a : Active} : (Chan.active a).waitOk ↔ a.waitOk :=
  ⟨fun h => h a rfl, fun h _ hb => Chan.active.inj hb ▸ h⟩

theorem Chan.waitOk_closed {x : Chan} (h : x.active? = none) : x.waitOk := fun a ha => by
  simp [ha, Chan.active?] at h

theorem State.waitLaw_of_chans {s t : State} (h : t.chans = s.chans) (hs : s.waitLaw) : t.waitLaw := by
  rw [State.waitLaw_iff] at hs ⊢
  intro c
  rw [State.chan, h]
  exact hs c

theorem State.waitLaw_setChan {s : State} {c : ChanIx} {x : Chan} (hs : s.waitLaw) (h : x.waitOk) :
    (s.setChan c x).waitLaw := by
  rw [State.waitLaw_iff] at hs ⊢
  intro d
  rw [State.chan_setChan]
  split_ifs
  · exact h
  · exact hs d

theorem State.waitLaw_setActive {s : State} {c : ChanIx} {a b : Active} (hs : s.waitLaw) (hc : s.chan c = .active a)
    (h : a.waitOk → b.waitOk) : (s.setChan c (.active b)).waitLaw :=
  State.waitLaw_setChan hs (Chan.waitOk_active.2 (h (State.waitLaw_iff.1 hs c a hc)))

/-- Waits are only ever taken away from the lists. -/
theorem Active.waitOk.sublist {a : Active} (h : a.waitOk) {tw cw : List Wait} (ht : tw.Sublist a.takeWaits)
    (hc : cw.Sublist a.collectWaits) : Active.waitOk { a with takeWaits := tw, collectWaits := cw } := by
  obtain ⟨h1, h2⟩ := h
  refine ⟨fun hn => h1 fun e => hn ?_, fun hn => h2 fun e => hn ?_⟩
  · exact List.sublist_nil.1 (e ▸ ht)
  · exact List.sublist_nil.1 (e ▸ hc)

theorem Active.waitOk.takes_nil {a : Active} (h : a.waitOk) {i : DescIx} {rest : List DescIx}
    (hf : a.forward = i :: rest) : a.takeWaits = [] := by
  by_contra hn
  obtain ⟨he, _⟩ := h.1 hn
  exact absurd (hf.symm.trans he) (by simp)

theorem Active.waitOk.collects_nil {a : Active} (h : a.waitOk) {i : DescIx} {rest : List DescIx}
    (hf : a.returns = i :: rest) : a.collectWaits = [] := by
  by_contra hn
  exact absurd (hf.symm.trans (h.2 hn)) (by simp)

/-- The head of a forward queue leaves it, and a waiting COLLECT with it. -/
theorem Active.waitOk.forward_tail {a : Active} (h : a.waitOk) {i : DescIx} {rest : List DescIx}
    (hf : a.forward = i :: rest) {cw : List Wait} (hc : cw.Sublist a.collectWaits) :
    Active.waitOk { a with forward := rest, collectWaits := cw } :=
  ⟨fun hn => absurd (h.takes_nil hf) hn, fun hn => h.2 fun e => hn (List.sublist_nil.1 (e ▸ hc))⟩

theorem Active.waitOk.returns_tail {a : Active} (h : a.waitOk) {i : DescIx} {rest : List DescIx}
    (hf : a.returns = i :: rest) : Active.waitOk { a with returns := rest } :=
  ⟨h.1, fun hn => absurd (h.collects_nil hf) hn⟩

theorem Move.waitLaw {k : Option ChanIx} {s t : State} (h : Move k s t) (hs : s.waitLaw) : t.waitLaw := by
  cases h with
  | tells h => exact State.waitLaw_of_chans h.chans hs
  | free => exact State.waitLaw_of_chans (State.freeDesc_chans ..) hs
  | freeForward hc hf =>
    refine State.waitLaw_of_chans (State.freeDesc_chans ..) (State.waitLaw_setActive hs hc fun h => ?_)
    exact h.forward_tail hf (List.Sublist.refl _)
  | freeReturn hc hf =>
    exact State.waitLaw_of_chans (State.freeDesc_chans ..) (State.waitLaw_setActive hs hc fun h => h.returns_tail hf)
  | bounceCollect hc hf hl hw =>
    refine State.waitLaw_of_chans (State.setLife_chans ..) (State.waitLaw_setActive hs hc fun h => ?_)
    exact h.forward_tail hf (by rw [hw]; exact List.sublist_cons_self ..)
  | bounceReturn hc hf hl hw =>
    refine State.waitLaw_of_chans (State.setLife_chans ..) (State.waitLaw_setActive hs hc fun h => ?_)
    exact ⟨fun hn => absurd (h.takes_nil hf) hn, fun hn => absurd hw hn⟩
  | dropStray hc hf =>
    exact State.waitLaw_setActive hs hc fun h => h.forward_tail hf (List.Sublist.refl _)
  | close hc =>
    refine State.waitLaw_setActive hs hc fun h => ⟨fun hn => absurd rfl hn, h.2⟩
  | unbind => exact State.waitLaw_setChan hs (Chan.waitOk_closed rfl)
  | unoffer => exact State.waitLaw_setChan hs (Chan.waitOk_closed rfl)
  | leaveWaits hc ht hw => exact State.waitLaw_setActive hs hc fun h => h.sublist ht hw
  | joinTakes hc hf hp hq =>
    exact State.waitLaw_setActive hs hc fun h => ⟨fun _ => ⟨hf, hp, hq⟩, h.2⟩
  | joinCollects hc hf => exact State.waitLaw_setActive hs hc fun h => ⟨h.1, fun _ => hf⟩
  | dropAlloc p tag => exact State.waitLaw_of_chans (s.dropAllocWait_chans p tag) hs
  | @endTest x y pass hx hy => exact State.waitLaw_of_chans (s.takeResult_chans x.block pass) hs
  | upset w flips cells level => exact State.waitLaw_of_chans (s.noteUpset_chans w flips cells level) hs
  | @depart p ho =>
    rw [State.waitLaw_iff] at hs ⊢
    intro c
    rw [State.dropHoldings_chan]
    cases hx : s.chan c with
    | unbound => exact Chan.waitOk_closed rfl
    | offered => exact Chan.waitOk_closed rfl
    | active a =>
      refine Chan.waitOk_active.2 ((hs c a hx).sublist ?_ ?_)
      · split_ifs
        · exact List.nil_sublist _
        · exact List.Sublist.refl _
      · split_ifs
        · exact List.nil_sublist _
        · exact List.Sublist.refl _
  | _ => exact State.waitLaw_of_chans rfl hs

theorem Shift.waitLaw {k : Option ChanIx} {s t : State} (h : Shift k s t) (hs : s.waitLaw) : t.waitLaw := by
  cases h with
  | allocate => exact State.waitLaw_of_chans (State.allocTo_chans ..) hs
  | post hc _ _ _ _ _ _ hw =>
    refine State.waitLaw_of_chans (State.setLife_chans ..) (State.waitLaw_setActive hs hc fun h => ?_)
    exact ⟨fun hn => absurd hw hn, h.2⟩
  | postTaken hc _ _ _ _ _ hw =>
    refine State.waitLaw_of_chans (State.setLife_chans ..) (State.waitLaw_setActive hs hc fun h => ?_)
    exact ⟨fun _ => h.1 (by simp [hw]), h.2⟩
  | take hc hf =>
    refine State.waitLaw_of_chans (State.setLife_chans ..) (State.waitLaw_setActive hs hc fun h => ?_)
    exact h.forward_tail hf (List.Sublist.refl _)
  | collect hc hf =>
    exact State.waitLaw_of_chans (State.setLife_chans ..) (State.waitLaw_setActive hs hc fun h => h.returns_tail hf)
  | comeCollect hl hc ho hw =>
    refine State.waitLaw_of_chans (State.setLife_chans ..) (State.waitLaw_setActive hs hc fun h => ?_)
    exact ⟨h.1, fun _ => h.2 (by simp [hw])⟩
  | comeReturn hl hc hw =>
    refine State.waitLaw_of_chans (State.setLife_chans ..) (State.waitLaw_setActive hs hc fun h => ?_)
    exact ⟨h.1, fun hn => absurd hw hn⟩
  | refill => exact State.waitLaw_of_chans rfl hs

theorem Bind.waitLaw {s t : State} (h : Bind s t) (hs : s.waitLaw) : t.waitLaw := by
  cases h with
  | offer => exact State.waitLaw_setChan hs (Chan.waitOk_closed rfl)
  | accept =>
    exact State.waitLaw_setChan hs (Chan.waitOk_active.2 ⟨fun hn => absurd rfl hn, fun hn => absurd rfl hn⟩)

/-! ### The sequences of a forward queue -/

/-- The sequences `f` of the descriptors `l` are consecutive and end with `next` minus one. -/
def countsUpTo (f : DescIx → BitVec 16) (next : BitVec 16) : List DescIx → Prop
  | [] => True
  | i :: rest => f i = next - BitVec.ofNat 16 (rest.length + 1) ∧ countsUpTo f next rest

theorem countsUpTo_iff (f : DescIx → BitVec 16) (next : BitVec 16) (l : List DescIx) :
    countsUpTo f next l ↔
      l.map f = (List.range l.length).map (fun k => next - BitVec.ofNat 16 l.length + BitVec.ofNat 16 k) := by
  induction l with
  | nil => simp [countsUpTo]
  | cons i rest ih =>
    have htail : ((fun k => next - BitVec.ofNat 16 (rest.length + 1) + BitVec.ofNat 16 k) ∘ Nat.succ) =
        fun k => next - BitVec.ofNat 16 rest.length + BitVec.ofNat 16 k := by
      funext k
      simp only [Function.comp_apply, Nat.succ_eq_add_one, BitVec.ofNat_add]
      ring
    rw [countsUpTo, ih, List.length_cons, List.range_succ_eq_map, List.map_cons, List.map_cons, List.map_map, htail,
      List.cons.injEq]
    simp

theorem countsUpTo.suffix {f : DescIx → BitVec 16} {next : BitVec 16} {l l' : List DescIx} (h : countsUpTo f next l)
    (hs : l' <:+ l) : countsUpTo f next l' := by
  induction l with
  | nil =>
    rw [List.suffix_nil.1 hs]
    exact h
  | cons i rest ih =>
    obtain rfl | hs := List.suffix_cons_iff.1 hs
    · exact h
    · exact ih h.2 hs

theorem countsUpTo.congr {f g : DescIx → BitVec 16} {next : BitVec 16} {l : List DescIx} (h : countsUpTo f next l)
    (hfg : ∀ i ∈ l, g i = f i) : countsUpTo g next l := by
  induction l with
  | nil => trivial
  | cons i rest ih =>
    obtain ⟨hi, hrest⟩ := h
    exact ⟨(hfg i (List.mem_cons_self ..)).trans hi, ih hrest fun j hj => hfg j (List.mem_cons_of_mem _ hj)⟩

theorem countsUpTo.snoc {f : DescIx → BitVec 16} {next : BitVec 16} {l : List DescIx} {i : DescIx}
    (h : countsUpTo f next l) (hi : f i = next) : countsUpTo f (next + 1#16) (l ++ [i]) := by
  induction l with
  | nil => exact ⟨by simpa using hi, trivial⟩
  | cons j rest ih =>
    obtain ⟨hj, hrest⟩ := h
    refine ⟨?_, ih hrest⟩
    change f j = next + 1#16 - BitVec.ofNat 16 ((rest ++ [i]).length + 1)
    rw [hj, List.length_append, List.length_singleton, BitVec.ofNat_add (rest.length + 1) 1]
    ring

theorem State.sequenceLaw_iff {s : State} :
    s.sequenceLaw ↔ ∀ c (a : Active), s.chan c = .active a → countsUpTo s.sequenceOf a.nextSequence a.forward := by
  simp only [State.sequenceLaw, countsUpTo_iff, Chan.active?_eq_some]

/-! ### What an event leaves of the sequences -/

/-- Every forward queue that is not empty is what is left behind of the one it was, with the next sequence it had. -/
def State.forwardsLeft (s t : State) : Prop :=
  ∀ c b, t.chan c = .active b →
    b.forward = [] ∨ ∃ a, s.chan c = .active a ∧ b.nextSequence = a.nextSequence ∧ b.forward <:+ a.forward

/-- Every QUEUED descriptor was so with the same traffic fields. -/
def State.queuedKept (s t : State) : Prop :=
  ∀ i b x, (t.desc i).life = .queued b x → ∃ b', (s.desc i).life = .queued b' x

theorem State.queuedKept.sequenceOf {s t : State} (h : s.queuedKept t) {i : DescIx} (hi : (t.desc i).state = .queued) :
    t.sequenceOf i = s.sequenceOf i := by
  obtain ⟨b, x, hl⟩ := (Desc.state_eq_queued_iff _).1 hi
  obtain ⟨b', hl'⟩ := h i b x hl
  simp [State.sequenceOf, Desc.traffic, hl, hl']

/-- The members of a forward queue are QUEUED. -/
theorem State.queueLaw.queued {s : State} (h : s.queueLaw) {c : ChanIx} {a : Active} (hc : s.chan c = .active a)
    {i : DescIx} (hi : i ∈ a.forward) : (s.desc i).state = .queued := by
  have hp := (State.queueLaw_iff.1 h).place (x := (false, c)) (by rwa [State.queueAt_forward hc])
  have := (Desc.queuedOn_iff _ _).2 hp
  simp only [Desc.queuedOn, Bool.and_eq_true, beq_iff_eq] at this
  exact this.1

theorem State.sequenceLaw.left {s t : State} (hs : s.sequenceLaw) (ht : t.queueLaw) (hf : s.forwardsLeft t)
    (hq : s.queuedKept t) : t.sequenceLaw := by
  rw [State.sequenceLaw_iff] at hs ⊢
  intro c b hb
  obtain h | ⟨a, ha, hn, hsuf⟩ := hf c b hb
  · rw [h]
    trivial
  · rw [hn]
    exact ((hs c a ha).suffix hsuf).congr fun i hi => hq.sequenceOf (ht.queued hb hi)

theorem State.forwardsLeft_of_chans {s t : State} (h : t.chans = s.chans) : s.forwardsLeft t := fun c b hb =>
  .inr ⟨b, by rwa [State.chan, ← h], rfl, List.suffix_refl _⟩

theorem State.forwardsLeft_setChan {s : State} {c : ChanIx} {x : Chan} (h : ∀ b, x = .active b →
    b.forward = [] ∨ ∃ a, s.chan c = .active a ∧ b.nextSequence = a.nextSequence ∧ b.forward <:+ a.forward) :
    s.forwardsLeft (s.setChan c x) := fun d b hb => by
  rw [State.chan_setChan] at hb
  split_ifs at hb with hcd
  · exact hcd ▸ h b hb
  · exact .inr ⟨b, hb, rfl, List.suffix_refl _⟩

theorem State.forwardsLeft_setActive {s : State} {c : ChanIx} {a b : Active} (hc : s.chan c = .active a)
    (hn : b.nextSequence = a.nextSequence) (hf : b.forward <:+ a.forward) : s.forwardsLeft (s.setChan c (.active b)) :=
  State.forwardsLeft_setChan fun _ hb => Chan.active.inj hb ▸ .inr ⟨a, hc, hn, hf⟩

theorem State.forwardsLeft.of_chans {s t u : State} (h : s.forwardsLeft t) (e : u.chans = t.chans) : s.forwardsLeft u :=
  fun c b hb => h c b (by rwa [State.chan, ← e])

theorem Move.forwardsLeft {k : Option ChanIx} {s t : State} (h : Move k s t) : s.forwardsLeft t := by
  cases h with
  | tells h => exact State.forwardsLeft_of_chans h.chans
  | free => exact State.forwardsLeft_of_chans (State.freeDesc_chans ..)
  | freeForward hc hf =>
    refine State.forwardsLeft.of_chans ?_ (State.freeDesc_chans ..)
    exact State.forwardsLeft_setActive hc rfl (hf ▸ List.suffix_cons ..)
  | freeReturn hc =>
    refine State.forwardsLeft.of_chans ?_ (State.freeDesc_chans ..)
    exact State.forwardsLeft_setActive hc rfl (List.suffix_refl _)
  | bounceCollect hc hf => exact State.forwardsLeft_setActive hc rfl (hf ▸ List.suffix_cons ..)
  | bounceReturn hc hf => exact State.forwardsLeft_setActive hc rfl (hf ▸ List.suffix_cons ..)
  | dropStray hc hf => exact State.forwardsLeft_setActive hc rfl (hf ▸ List.suffix_cons ..)
  | close hc => exact State.forwardsLeft_setActive hc rfl (List.suffix_refl _)
  | unbind => exact State.forwardsLeft_setChan fun _ hb => nomatch hb
  | unoffer => exact State.forwardsLeft_setChan fun _ hb => nomatch hb
  | leaveWaits hc => exact State.forwardsLeft_setActive hc rfl (List.suffix_refl _)
  | joinTakes hc => exact State.forwardsLeft_setActive hc rfl (List.suffix_refl _)
  | joinCollects hc => exact State.forwardsLeft_setActive hc rfl (List.suffix_refl _)
  | dropAlloc p tag => exact State.forwardsLeft_of_chans (s.dropAllocWait_chans p tag)
  | @endTest x y pass hx hy => exact State.forwardsLeft_of_chans (s.takeResult_chans x.block pass)
  | upset w flips cells level => exact State.forwardsLeft_of_chans (s.noteUpset_chans w flips cells level)
  | depart =>
    intro c b hb
    rw [State.dropHoldings_chan] at hb
    cases hx : s.chan c with
    | unbound => exact nomatch hx ▸ hb
    | offered => exact nomatch hx ▸ hb
    | active a =>
      rw [hx] at hb
      obtain rfl := Chan.active.inj hb
      exact .inr ⟨a, rfl, rfl, List.suffix_refl _⟩
  | _ => exact State.forwardsLeft_of_chans rfl

theorem State.queuedKept_of_descs {s t : State} (h : t.descs = s.descs) : s.queuedKept t := fun i b x hl =>
  ⟨b, by rwa [State.desc_of_descs h] at hl⟩

theorem State.queuedKept_setLife {s u : State} {i : DescIx} {l : Life} (hd : u.descs = s.descs)
    (hl : ∀ b x, l ≠ .queued b x) : s.queuedKept (u.setLife i l) := fun j b x hj => by
  rw [State.desc_setLife] at hj
  split_ifs at hj with hij
  · exact absurd hj (hl b x)
  · exact ⟨b, by rwa [State.desc_of_descs hd] at hj⟩

theorem State.queuedKept_freeDesc {s u : State} {i : DescIx} (hd : u.descs = s.descs) :
    s.queuedKept (u.freeDesc i) := fun j b x hj => by
  by_cases hij : i = j
  · subst hij
    by_cases hb : (u.desc i).buf = none
    · simp only [State.freeDesc, hb] at hj
      exact ⟨b, by rwa [State.desc_of_descs hd] at hj⟩
    · rw [u.freeDesc_desc_same i hb] at hj
      exact nomatch hj
  · rw [u.freeDesc_desc_ne hij, State.desc_of_descs hd] at hj
    exact ⟨b, hj⟩

theorem Move.queuedKept {k : Option ChanIx} {s t : State} (h : Move k s t) : s.queuedKept t := by
  cases h with
  | tells h => exact State.queuedKept_of_descs h.descs
  | free => exact State.queuedKept_freeDesc rfl
  | freeForward => exact State.queuedKept_freeDesc (State.setChan_descs ..)
  | freeReturn => exact State.queuedKept_freeDesc (State.setChan_descs ..)
  | bounceCollect => exact State.queuedKept_setLife (State.setChan_descs ..) nofun
  | bounceReturn => exact State.queuedKept_setLife (State.setChan_descs ..) nofun
  | dropAlloc p tag => exact State.queuedKept_of_descs (s.dropAllocWait_descs p tag)
  | @damage i b hb =>
    intro j b' x hj
    rw [State.desc_setDesc] at hj
    split_ifs at hj with hij
    · subst hij
      cases hl : (s.desc i).life <;> simp [Desc.withDamage, hl] at hj
      exact ⟨_, congrArg _ hj.2⟩
    · exact ⟨b', hj⟩
  | renew => exact State.queuedKept_setLife rfl nofun
  | @endTest x y pass hx hy => exact State.queuedKept_of_descs (s.takeResult_descs x.block pass)
  | upset w flips cells level => exact State.queuedKept_of_descs (by rw [noteUpset_frame s w flips cells]; rfl)
  | @depart p ho => exact State.queuedKept_of_descs (s.dropHoldings_descs p)
  | _ => exact State.queuedKept_of_descs rfl

theorem Move.sequenceLaw {k : Option ChanIx} {s t : State} (h : Move k s t) (hq : s.queueLaw) (hs : s.sequenceLaw) :
    t.sequenceLaw := hs.left (h.queueLaw hq) h.forwardsLeft h.queuedKept

/-- A posted buffer joins its queue with the next sequence, and the next sequence rises (R6). -/
theorem State.sequenceLaw.post {s : State} {c : ChanIx} {a : Active} {i : DescIx} {b : Buf} {t : Traffic}
    (hs : s.sequenceLaw) (hq : s.queueLaw) (hc : s.chan c = .active a) (hi : (s.desc i).state ≠ .queued)
    (ht : t.sequence = a.nextSequence) :
    ((s.setChan c (.active { a with nextSequence := a.nextSequence + 1#16, forward := a.forward ++ [i] })).setLife i
      (.queued b t)).sequenceLaw := by
  rw [State.sequenceLaw_iff] at hs ⊢
  intro d x hx
  rw [State.chan_setLife, State.chan_setChan] at hx
  have hother {d : ChanIx} {x : Active} (hd : s.chan d = .active x) (j : DescIx) (hj : j ∈ x.forward) (y : Chan) :
      ((s.setChan c y).setLife i (.queued b t)).sequenceOf j = s.sequenceOf j := by
    have hij : i ≠ j := fun e => hi (e ▸ hq.queued hd hj)
    simp [State.sequenceOf, hij]
  split_ifs at hx with hcd
  · obtain rfl := Chan.active.inj hx
    refine countsUpTo.snoc ((hs c a hc).congr fun j hj => hother hc j hj _) ?_
    simp [State.sequenceOf, Desc.traffic, ht]
  · exact (hs d x hx).congr fun j hj => hother hx j hj _

theorem Shift.sequenceLaw {k : Option ChanIx} {s t : State} (h : Shift k s t) (hq : s.queueLaw) (hw : s.waitLaw)
    (hs : s.sequenceLaw) : t.sequenceLaw := by
  have ht := h.queueLaw hq
  cases h with
  | @allocate p n i =>
    refine hs.left ht (State.forwardsLeft_of_chans (s.allocTo_chans p n i)) fun j b x hj => ?_
    rw [State.desc_of_descs (s.allocTo_descs p n i)] at hj
    exact State.queuedKept_setLife (s := s) (l := .filling ⟨p, s.freeList.take n, false⟩) rfl nofun j b x hj
  | post hc _ _ hl _ _ hseq => exact hs.post hq hc (by simp [Desc.state, hl]) hseq
  | postTaken hc _ _ _ _ _ htw =>
    refine hs.left ht (State.forwardsLeft_setChan fun b hb => ?_) (State.queuedKept_setLife (State.setChan_descs ..) nofun)
    obtain rfl := Chan.active.inj hb
    have hok := State.waitLaw_iff.1 hw _ _ hc
    exact .inl (hok.1 (by simp [htw])).1
  | take hc hf =>
    refine hs.left ht ?_ (State.queuedKept_setLife (State.setChan_descs ..) nofun)
    exact State.forwardsLeft_setActive hc rfl (hf ▸ List.suffix_cons ..)
  | collect hc =>
    refine hs.left ht ?_ (State.queuedKept_setLife (State.setChan_descs ..) nofun)
    exact State.forwardsLeft_setActive hc rfl (List.suffix_refl _)
  | comeCollect _ hc =>
    refine hs.left ht ?_ (State.queuedKept_setLife (State.setChan_descs ..) nofun)
    exact State.forwardsLeft_setActive hc rfl (List.suffix_refl _)
  | comeReturn _ hc =>
    refine hs.left ht ?_ (State.queuedKept_setLife (State.setChan_descs ..) nofun)
    exact State.forwardsLeft_setActive hc rfl (List.suffix_refl _)
  | refill => exact hs.left ht (State.forwardsLeft_of_chans rfl) (State.queuedKept_setLife rfl nofun)

theorem Bind.sequenceLaw {s t : State} (h : Bind s t) (hq : s.queueLaw) (hs : s.sequenceLaw) : t.sequenceLaw := by
  have ht := h.queueLaw hq
  cases h with
  | offer => exact hs.left ht (State.forwardsLeft_setChan nofun) (State.queuedKept_of_descs rfl)
  | accept =>
    refine hs.left ht (State.forwardsLeft_setChan fun b hb => ?_) (State.queuedKept_of_descs rfl)
    obtain rfl := Chan.active.inj hb
    exact .inl rfl

/-! ### Every command -/

/-- The laws of queues, waits and sequences together. -/
def State.orderLaw (s : State) : Prop := s.queueLaw ∧ s.waitLaw ∧ s.sequenceLaw

theorem Run.waitLaw {s t : State} (h : Run s t) (hs : s.waitLaw) : t.waitLaw :=
  h.keeps (P := State.waitLaw) (fun _ _ _ => Move.waitLaw) (fun _ _ _ => Shift.waitLaw) (fun _ _ => Bind.waitLaw) hs

theorem Run.orderLaw {s t : State} (h : Run s t) (hs : s.orderLaw) : t.orderLaw :=
  h.keeps (P := State.orderLaw)
    (fun _ _ _ h ⟨hq, hw, hs⟩ => ⟨h.queueLaw hq, h.waitLaw hw, h.sequenceLaw hq hs⟩)
    (fun _ _ _ h ⟨hq, hw, hs⟩ => ⟨h.queueLaw hq, h.waitLaw hw, h.sequenceLaw hq hw hs⟩)
    (fun _ _ h ⟨hq, hw, hs⟩ => ⟨h.queueLaw hq, h.waitLaw hw, h.sequenceLaw hq hs⟩) hs

theorem State.orderLaw_of_records {s t : State} (hs : s.orderLaw) (hc : t.chans = s.chans) (hd : t.descs = s.descs) :
    t.orderLaw := by
  obtain ⟨hq, hw, hseq⟩ := hs
  have ht := State.queueLaw_of_eq hq (State.queueAt_of_chans hc) (State.placeOf_of_descs hd)
  exact ⟨ht, State.waitLaw_of_chans hc hw, hseq.left ht (State.forwardsLeft_of_chans hc) (State.queuedKept_of_descs hd)⟩

theorem Active.waitOk_count {a : Active} (h : a.waitOk) :
    Active.waitOk { a with takeWaits := a.takeWaits.map Wait.count, collectWaits := a.collectWaits.map Wait.count } := by
  simpa [Active.waitOk] using h

theorem State.tickOnce_waitLaw {s : State} (h : s.resetIn = false) (hs : s.waitLaw) : s.tickOnce.waitLaw := by
  rw [State.waitLaw_iff] at hs ⊢
  intro c
  rw [State.tickOnce_chan h]
  cases hx : s.chan c with
  | unbound => exact Chan.waitOk_closed rfl
  | offered => exact Chan.waitOk_closed rfl
  | active a => exact Chan.waitOk_active.2 (Active.waitOk_count (hs c a hx))

theorem State.tickOnce_orderLaw {s : State} (h : s.resetIn = false) (hs : s.orderLaw) : s.tickOnce.orderLaw := by
  obtain ⟨hq, hw, hseq⟩ := hs
  have ht : s.tickOnce.queueLaw := State.queueLaw_of_eq hq (State.tickOnce_queueAt h) (funext fun i => by
    rw [State.placeOf, State.tickOnce_desc h, Desc.place_count]
    rfl)
  refine ⟨ht, State.tickOnce_waitLaw h hw, hseq.left ht (fun c b hb => ?_) fun i b x hl => ?_⟩
  · rw [State.tickOnce_chan h] at hb
    cases hx : s.chan c with
    | unbound => exact nomatch hx ▸ hb
    | offered => exact nomatch hx ▸ hb
    | active a =>
      rw [hx] at hb
      obtain rfl := Chan.active.inj hb
      exact .inr ⟨a, rfl, rfl, List.suffix_refl _⟩
  · rw [State.tickOnce_desc h, Desc.count] at hl
    split at hl
    next => exact nomatch hl
    all_goals exact ⟨b, hl⟩

theorem State.reexamine_orderLaw {s : State} (hs : s.orderLaw) : s.reexamine.orderLaw := by
  obtain ⟨hq, hw, hseq⟩ := hs
  have hnew (i : DescIx) (h : (s.desc i).state = .free ∧ (s.reexamine.desc i).state = .filling) :
      (s.reexamine.desc i).life.place = none ∧ (s.desc i).life.place = none := by
    obtain ⟨h, h'⟩ := h
    exact ⟨Life.place_of_buf (by rw [show (Desc.mk 0 (s.reexamine.desc i).life).state = .filling from h']; simp)
        (by rw [show (Desc.mk 0 (s.reexamine.desc i).life).state = .filling from h']; simp),
      Life.place_of_buf (by rw [show (Desc.mk 0 (s.desc i).life).state = .free from h]; simp)
        (by rw [show (Desc.mk 0 (s.desc i).life).state = .free from h]; simp)⟩
  have ht : s.reexamine.queueLaw := State.queueLaw_of_eq hq (State.queueAt_of_chans s.reexamine_chans) (funext fun i => by
    obtain h | h := s.reexamine_desc i
    · rw [State.placeOf, h]
      rfl
    · rw [State.placeOf, (hnew i h).1, State.placeOf, (hnew i h).2])
  refine ⟨ht, State.waitLaw_of_chans s.reexamine_chans hw,
    hseq.left ht (State.forwardsLeft_of_chans s.reexamine_chans) fun i b x hl => ?_⟩
  obtain h | ⟨_, h⟩ := s.reexamine_desc i
  · exact ⟨b, h ▸ hl⟩
  · simp [Desc.state, hl] at h

theorem State.deviceReset_waitLaw (s : State) : s.deviceReset.waitLaw :=
  State.waitLaw_iff.2 fun c => by
    rw [s.deviceReset_chan]
    exact Chan.waitOk_closed rfl

theorem Effect.waitLaw {c : Instr} {s t : State} (h : Effect c s t) (hs : s.waitLaw) : t.waitLaw := by
  cases h with
  | run h => exact h.waitLaw hs
  | read _ h ht =>
    obtain ⟨w, l, rfl⟩ := ht
    exact State.waitLaw_of_chans rfl (h.waitLaw hs)
  | grant _ _ ht => exact State.waitLaw_of_chans ht.chans hs
  | reexamine => exact State.waitLaw_of_chans s.reexamine_chans hs
  | tick h => exact State.tickOnce_waitLaw h hs
  | walk h =>
    rw [State.walkStep_eq h]
    exact State.waitLaw_of_chans rfl ((run_walkAt s _ _).waitLaw hs)
  | resetAssert ho h =>
    have hdrop : (s.dropHoldings _).waitLaw := Move.waitLaw (k := none) (.depart ho) hs
    exact Run.waitLaw (.calm h) (State.waitLaw_of_chans rfl hdrop)
  | deviceReset => exact s.deviceReset_waitLaw
  | _ => exact State.waitLaw_of_chans rfl hs

theorem Effect.orderLaw {c : Instr} {s t : State} (h : Effect c s t) (hs : s.orderLaw) : t.orderLaw := by
  cases h with
  | run h => exact h.orderLaw hs
  | read _ h ht =>
    obtain ⟨w, l, rfl⟩ := ht
    exact State.orderLaw_of_records (h.orderLaw hs) rfl rfl
  | grant _ _ ht => exact State.orderLaw_of_records hs ht.chans ht.descs
  | reexamine => exact State.reexamine_orderLaw hs
  | tick h => exact State.tickOnce_orderLaw h hs
  | walk h =>
    rw [State.walkStep_eq h]
    exact State.orderLaw_of_records ((run_walkAt s _ _).orderLaw hs) rfl rfl
  | resetAssert ho h =>
    have hdrop : (s.dropHoldings _).orderLaw := Run.orderLaw (.ofPath (.one (.depart ho))) hs
    exact Run.orderLaw (.calm h) (State.orderLaw_of_records hdrop rfl rfl)
  | deviceReset =>
    exact ⟨s.deviceReset_trafficLaw.1, s.deviceReset_waitLaw, State.sequenceLaw_iff.2 fun c a ha => by
      simp [s.deviceReset_chan] at ha⟩
  | _ => exact State.orderLaw_of_records hs rfl rfl

/-- Settles O10: every effect of a command keeps the wait lists in their places and the sequences consecutive. -/
theorem sequenceAndWaitLawsKept : Obligations.SequenceAndWaitLawsKept := by
  intro c s t hexec
  have h := effect_of_exec hexec
  refine ⟨fun hq hw hs => ?_, h.waitLaw⟩
  obtain ⟨_, _, hseq⟩ := h.orderLaw ⟨hq, hw, hs⟩
  exact hseq

end Sys2Proof.Machine

/-!
PROOFS. What a port that has departed waits for and holds. A wait joins a list of an ONLINE port and leaves it at the port's
reclaim start; a descriptor comes to a holder that is ONLINE, and the reclaim walk takes from its port each descriptor it
reaches (R31, R84, R161, R168).
-/

namespace Sys2Proof.Machine

/-! ### Waits -/

/-- The waits on the open channel belong to ports that are ONLINE by `on`. -/
def Active.waitersOk (on : Port → Bool) (a : Active) : Prop :=
  (a.takeWaits ≠ [] → on a.params.consumer = true) ∧ (a.collectWaits ≠ [] → on a.params.producer = true)

/-- The channel is not open, or its waits belong to ports that are ONLINE by `on`. -/
def Chan.waitersOk (on : Port → Bool) (x : Chan) : Prop := ∀ a, x = .active a → a.waitersOk on

theorem State.waiterLaw_iff {s : State} :
    s.waiterLaw ↔ (∀ e ∈ s.allocWaits, s.online e.port = true) ∧ ∀ c, (s.chan c).waitersOk s.online := by
  simp only [State.waiterLaw, Chan.waitersOk, Active.waitersOk, Chan.active?_eq_some]

theorem Chan.waitersOk_active {on : Port → Bool} {a : Active} : (Chan.active a).waitersOk on ↔ a.waitersOk on :=
  ⟨fun h => h a rfl, fun h _ hb => Chan.active.inj hb ▸ h⟩

theorem Chan.waitersOk_closed {on : Port → Bool} {x : Chan} (h : x.active? = none) : x.waitersOk on := fun a ha => by
  simp [ha, Chan.active?] at h

theorem Chan.waitersOk.mono {on on' : Port → Bool} {x : Chan} (h : x.waitersOk on) (ho : ∀ q, on q = true → on' q = true) :
    x.waitersOk on' := fun a ha =>
  have ⟨ht, hc⟩ := h a ha
  ⟨ho _ ∘ ht, ho _ ∘ hc⟩

/-- No port goes off line, no entry joins the allocation wait list, and the channels are as they were. -/
theorem State.waiterLaw_of_chans {s t : State} (hs : s.waiterLaw) (ho : ∀ q, s.online q = true → t.online q = true)
    (ha : ∀ e ∈ t.allocWaits, e ∈ s.allocWaits) (hc : t.chans = s.chans) : t.waiterLaw := by
  rw [State.waiterLaw_iff] at hs ⊢
  obtain ⟨hs1, hs2⟩ := hs
  refine ⟨fun e he => ho _ (hs1 e (ha e he)), fun c => ?_⟩
  rw [State.chan, hc]
  exact (hs2 c).mono ho

theorem State.waiterLaw_setChan {s : State} {c : ChanIx} {x : Chan} (hs : s.waiterLaw) (h : x.waitersOk s.online) :
    (s.setChan c x).waiterLaw := by
  rw [State.waiterLaw_iff] at hs ⊢
  obtain ⟨hs1, hs2⟩ := hs
  refine ⟨hs1, fun d => ?_⟩
  rw [State.chan_setChan]
  split_ifs
  · exact h
  · exact hs2 d

theorem State.waiterLaw_setActive {s : State} {c : ChanIx} {a b : Active} (hs : s.waiterLaw) (hc : s.chan c = .active a)
    (h : a.waitersOk s.online → b.waitersOk s.online) : (s.setChan c (.active b)).waiterLaw := by
  obtain ⟨_, hs2⟩ := State.waiterLaw_iff.1 hs
  exact State.waiterLaw_setChan hs (Chan.waitersOk_active.2 (h (hs2 c a hc)))

theorem State.waiterLaw_setLife {s : State} (hs : s.waiterLaw) (i : DescIx) (l : Life) : (s.setLife i l).waiterLaw :=
  State.waiterLaw_of_chans hs (fun _ => id) (fun _ => id) rfl

theorem State.waiterLaw_freeDesc {s : State} (hs : s.waiterLaw) (i : DescIx) : (s.freeDesc i).waiterLaw := by
  obtain ⟨d, x, f, r, n, h⟩ := s.freeDesc_frame i
  rw [h]
  exact State.waiterLaw_of_chans hs (fun _ => id) (fun _ => id) rfl

theorem Active.waitersOk.sublist {on : Port → Bool} {a b : Active} (h : a.waitersOk on) (hm : b.params = a.params)
    (ht : b.takeWaits.Sublist a.takeWaits) (hc : b.collectWaits.Sublist a.collectWaits) : b.waitersOk on := by
  obtain ⟨h1, h2⟩ := h
  rw [Active.waitersOk, hm]
  exact ⟨fun hn => h1 fun e => hn (List.sublist_nil.1 (e ▸ ht)), fun hn => h2 fun e => hn (List.sublist_nil.1 (e ▸ hc))⟩

theorem State.dropAllocWait_mem {s : State} {p : Port} {tag : Tag} {e : AllocWait}
    (he : e ∈ (s.dropAllocWait p tag).allocWaits) : e ∈ s.allocWaits := by
  unfold State.dropAllocWait at he
  dsimp only at he
  split at he <;> exact List.mem_of_mem_eraseP he

theorem State.dropAllocWait_ports (s : State) (p : Port) (tag : Tag) : (s.dropAllocWait p tag).ports = s.ports := by
  unfold State.dropAllocWait
  dsimp only
  split <;> rfl

theorem State.dropHoldings_allocWaits (s : State) (p : Port) :
    (s.dropHoldings p).allocWaits = s.allocWaits.filter (fun e => decide (e.port ≠ p)) := by
  unfold State.dropHoldings
  dsimp only
  split <;> rfl

theorem State.dropHoldings_state (s : State) (p q : Port) :
    ((s.dropHoldings p).hpi q).state = if p = q then .reclaiming 0 else (s.hpi q).state := by
  rw [State.dropHoldings_hpi]
  split_ifs <;> rfl

theorem State.dropHoldings_online {s : State} {p q : Port} (hq : q ≠ p) (ho : s.online q = true) :
    (s.dropHoldings p).online q = true := by
  rw [State.online_iff] at ho ⊢
  rw [State.dropHoldings_state, if_neg (Ne.symm hq)]
  exact ho

theorem State.dropHoldings_waiterLaw {s : State} (hs : s.waiterLaw) (p : Port) : (s.dropHoldings p).waiterLaw := by
  obtain ⟨hs1, hs2⟩ := State.waiterLaw_iff.1 hs
  refine State.waiterLaw_iff.2 ⟨fun e he => ?_, fun c => ?_⟩
  · rw [State.dropHoldings_allocWaits, List.mem_filter, decide_eq_true_eq] at he
    exact State.dropHoldings_online he.2 (hs1 e he.1)
  · rw [State.dropHoldings_chan]
    cases hx : s.chan c with
    | unbound => exact Chan.waitersOk_closed rfl
    | offered => exact Chan.waitersOk_closed rfl
    | active a =>
      obtain ⟨ht, hc⟩ := hs2 c a hx
      refine Chan.waitersOk_active.2 ⟨fun hn => ?_, fun hn => ?_⟩
      · by_cases hp : a.params.consumer = p
        · exact absurd (if_pos hp) hn
        · exact State.dropHoldings_online hp (ht (by simpa [hp] using hn))
      · by_cases hp : a.params.producer = p
        · exact absurd (if_pos hp) hn
        · exact State.dropHoldings_online hp (hc (by simpa [hp] using hn))

theorem Move.waiterLaw {k : Option ChanIx} {s t : State} (h : Move k s t) (hs : s.waiterLaw) : t.waiterLaw := by
  have hrefl {l : List Wait} : l.Sublist l := List.Sublist.refl _
  cases h with
  | tells h =>
    exact State.waiterLaw_of_chans hs (fun q => (h.online q).trans) (fun e he => h.allocWaits ▸ he) h.chans
  | free => exact State.waiterLaw_freeDesc hs _
  | freeForward hc =>
    refine State.waiterLaw_freeDesc (State.waiterLaw_setActive hs hc fun h => ?_) _
    exact h.sublist rfl hrefl hrefl
  | freeReturn hc =>
    refine State.waiterLaw_freeDesc (State.waiterLaw_setActive hs hc fun h => ?_) _
    exact h.sublist rfl hrefl hrefl
  | bounceCollect hc _ _ hw =>
    refine State.waiterLaw_setLife (State.waiterLaw_setActive hs hc fun h => ?_) _ _
    exact h.sublist rfl hrefl (hw ▸ List.sublist_cons_self ..)
  | bounceReturn hc =>
    refine State.waiterLaw_setLife (State.waiterLaw_setActive hs hc fun h => ?_) _ _
    exact h.sublist rfl hrefl hrefl
  | dropStray hc => exact State.waiterLaw_setActive hs hc fun h => h.sublist rfl hrefl hrefl
  | close hc => exact State.waiterLaw_setActive hs hc fun h => h.sublist rfl (List.nil_sublist _) hrefl
  | unbind => exact State.waiterLaw_setChan hs (Chan.waitersOk_closed rfl)
  | unoffer => exact State.waiterLaw_setChan hs (Chan.waitersOk_closed rfl)
  | leaveWaits hc ht hw => exact State.waiterLaw_setActive hs hc fun h => h.sublist rfl ht hw
  | joinTakes hc _ _ _ ho => exact State.waiterLaw_setActive hs hc fun ⟨_, h2⟩ => ⟨fun _ => ho, h2⟩
  | joinCollects hc _ ho => exact State.waiterLaw_setActive hs hc fun ⟨h1, _⟩ => ⟨h1, fun _ => ho⟩
  | @joinAllocs e ho =>
    obtain ⟨hs1, hs2⟩ := State.waiterLaw_iff.1 hs
    refine State.waiterLaw_iff.2 ⟨fun x hx => ?_, hs2⟩
    obtain hx | hx := List.mem_append.1 hx
    · exact hs1 x hx
    · rw [List.mem_singleton.1 hx]
      exact ho
  | dropAlloc p tag =>
    refine State.waiterLaw_of_chans hs (fun q hq => ?_) (fun _ => State.dropAllocWait_mem) (s.dropAllocWait_chans p tag)
    rwa [State.online, State.hpi_of_ports (s.dropAllocWait_ports p tag)]
  | @endTest x y pass => cases pass <;> exact State.waiterLaw_of_chans hs (fun _ => id) (fun _ => id) rfl
  | upset w flips cells level =>
    rw [noteUpset_frame s w flips cells]
    exact State.waiterLaw_of_chans hs (fun _ => id) (fun _ => id) rfl
  | depart => exact State.dropHoldings_waiterLaw hs _
  | attach hoff _ _ hh =>
    refine State.waiterLaw_of_chans hs (fun q hq => ?_) (fun _ => id) rfl
    rw [State.online_iff] at hq ⊢
    rw [State.hpi_setHpi]
    split_ifs
    · exact hh
    · exact hq
  | _ => exact State.waiterLaw_of_chans hs (fun _ => id) (fun _ => id) rfl

theorem State.allocTo_waiterLaw {s : State} (hs : s.waiterLaw) (p : Port) (n : Nat) (i : DescIx) :
    (s.allocTo p n i).waiterLaw := by
  obtain ⟨x, h⟩ := s.allocTo_frame p n i
  rw [h]
  exact State.waiterLaw_of_chans hs (fun _ => id) (fun _ => id) rfl

theorem Shift.waiterLaw {k : Option ChanIx} {s t : State} (h : Shift k s t) (hs : s.waiterLaw) : t.waiterLaw := by
  have hrefl {l : List Wait} : l.Sublist l := List.Sublist.refl _
  cases h with
  | allocate => exact State.allocTo_waiterLaw hs _ _ _
  | post hc =>
    refine State.waiterLaw_setLife (State.waiterLaw_setActive hs hc fun h => ?_) _ _
    exact h.sublist rfl hrefl hrefl
  | postTaken hc _ _ _ _ _ hw =>
    refine State.waiterLaw_setLife (State.waiterLaw_setActive hs hc fun h => ?_) _ _
    exact h.sublist rfl (hw ▸ List.sublist_cons_self ..) hrefl
  | take hc =>
    refine State.waiterLaw_setLife (State.waiterLaw_setActive hs hc fun h => ?_) _ _
    exact h.sublist rfl hrefl hrefl
  | collect hc =>
    refine State.waiterLaw_setLife (State.waiterLaw_setActive hs hc fun h => ?_) _ _
    exact h.sublist rfl hrefl hrefl
  | comeCollect _ hc _ hw =>
    refine State.waiterLaw_setLife (State.waiterLaw_setActive hs hc fun h => ?_) _ _
    exact h.sublist rfl hrefl (hw ▸ List.sublist_cons_self ..)
  | comeReturn _ hc =>
    refine State.waiterLaw_setLife (State.waiterLaw_setActive hs hc fun h => ?_) _ _
    exact h.sublist rfl hrefl hrefl
  | refill => exact State.waiterLaw_setLife hs _ _

theorem Bind.waiterLaw {s t : State} (h : Bind s t) (hs : s.waiterLaw) : t.waiterLaw := by
  cases h with
  | offer => exact State.waiterLaw_setChan hs (Chan.waitersOk_closed rfl)
  | accept =>
    exact State.waiterLaw_setChan hs (Chan.waitersOk_active.2 ⟨fun hn => absurd rfl hn, fun hn => absurd rfl hn⟩)

/-! ### Holders -/

/-- A port in this state may hold descriptor `i`: it is not OFFLINE, and no reclaim walk of it has passed `i`. -/
def PortState.mayHold (x : PortState) (i : DescIx) : Prop := x ≠ .offline ∧ ∀ next, x = .reclaiming next → next ≤ i

theorem PortState.mayHold_online (i : DescIx) : PortState.online.mayHold i := ⟨nofun, nofun⟩

theorem State.walkLaw_iff {s : State} : s.walkLaw ↔ ∀ p i, (s.desc i).holder = some p → (s.hpi p).state.mayHold i := Iff.rfl

/-- The holder of every descriptor held it before or is ONLINE. -/
def State.holdersKept (s t : State) : Prop :=
  ∀ i p, (t.desc i).holder = some p → (s.desc i).holder = some p ∨ s.online p = true

/-- A port that may hold a descriptor still may. -/
def State.statesKept (s t : State) : Prop := ∀ p i, (s.hpi p).state.mayHold i → (t.hpi p).state.mayHold i

theorem State.walkLaw.kept {s t : State} (hs : s.walkLaw) (hh : s.holdersKept t) (ht : s.statesKept t) : t.walkLaw := by
  intro p i hp
  obtain h | h := hh i p hp
  · exact ht p i (hs p i h)
  · exact ht p i (State.online_iff.1 h ▸ PortState.mayHold_online i)

theorem State.holdersKept_of_descs {s t : State} (h : t.descs = s.descs) : s.holdersKept t := fun i p hp =>
  .inl (by rwa [State.desc_of_descs h] at hp)

theorem State.holdersKept_setLife {s u : State} {i : DescIx} {l : Life} (hd : u.descs = s.descs)
    (hl : ∀ p, (Desc.mk (u.desc i).generation l).holder = some p → (s.desc i).holder = some p ∨ s.online p = true) :
    s.holdersKept (u.setLife i l) := fun j p hp => by
  rw [State.desc_setLife] at hp
  split_ifs at hp with hij
  · exact hij ▸ hl p hp
  · exact .inl (by rwa [State.desc_of_descs hd] at hp)

theorem State.holdersKept_freeDesc {s u : State} {i : DescIx} (hd : u.descs = s.descs) : s.holdersKept (u.freeDesc i) :=
  fun j p hp => by
    by_cases hij : i = j
    · subst hij
      by_cases hb : (u.desc i).buf = none
      · simp only [State.freeDesc, hb] at hp
        exact .inl (by rwa [State.desc_of_descs hd] at hp)
      · rw [u.freeDesc_desc_same i hb] at hp
        exact nomatch hp
    · rw [u.freeDesc_desc_ne hij, State.desc_of_descs hd] at hp
      exact .inl hp

/-- The origin of a buffer in transit is the producer of its channel. -/
theorem State.transitLaw.origin {s : State} (h : s.transitLaw) {i : DescIx} {o : Port} {c : ChanIx} {x : Option Port}
    (hi : (s.desc i).life.transit = some (o, c, x)) {a : Active} (hc : s.chan c = .active a) : a.params.producer = o := by
  obtain ⟨a', hc', hp, _⟩ := State.transitLaw_iff'.1 h i _ hi
  rw [Chan.active.inj (hc.symm.trans hc'), hp]

theorem Desc.holder_withDamage (d : Desc) : d.withDamage.holder = d.holder := by
  cases hl : d.life <;> simp [Desc.withDamage, Desc.holder, hl]

theorem Move.holdersKept {k : Option ChanIx} {s t : State} (h : Move k s t) (hs : s.trafficLaw) : s.holdersKept t := by
  obtain ⟨hq, ht⟩ := hs
  cases h with
  | tells h => exact State.holdersKept_of_descs h.descs
  | free => exact State.holdersKept_freeDesc rfl
  | freeForward => exact State.holdersKept_freeDesc (State.setChan_descs ..)
  | freeReturn => exact State.holdersKept_freeDesc (State.setChan_descs ..)
  | @bounceCollect c a i rest w ws b t r hc hf hl hw ho =>
    refine State.holdersKept_setLife (State.setChan_descs ..) fun p hp => .inr ?_
    obtain rfl : b.origin = p := Option.some.inj hp
    have htr : (s.desc i).life.transit = some (b.origin, c, none) := by
      simp [hl, Life.transit, hq.head_traffic hc hf hl]
    rwa [← ht.origin htr hc]
  | bounceReturn => exact State.holdersKept_setLife (State.setChan_descs ..) nofun
  | dropAlloc p tag => exact State.holdersKept_of_descs (s.dropAllocWait_descs p tag)
  | damage =>
    intro j p hp
    rw [State.desc_setDesc] at hp
    split_ifs at hp with hij
    · subst hij
      exact .inl ((Desc.holder_withDamage _).symm.trans hp)
    · exact .inl hp
  | renew hl =>
    refine State.holdersKept_setLife rfl fun q hq => .inl ?_
    rw [Desc.holder, hl]
    exact hq
  | @endTest x y pass hx hy => exact State.holdersKept_of_descs (s.takeResult_descs x.block pass)
  | upset w flips cells level => exact State.holdersKept_of_descs (by rw [noteUpset_frame s w flips cells]; rfl)
  | @depart p ho => exact State.holdersKept_of_descs (s.dropHoldings_descs p)
  | _ => exact State.holdersKept_of_descs rfl

theorem Shift.holdersKept {k : Option ChanIx} {s t : State} (h : Shift k s t) (hs : s.trafficLaw) (hw : s.waiterLaw) :
    s.holdersKept t := by
  obtain ⟨hq, ht⟩ := hs
  cases h with
  | @allocate p n i ho =>
    intro j q hj
    rw [State.desc_of_descs (s.allocTo_descs p n i)] at hj
    refine State.holdersKept_setLife (s := s) (l := .filling ⟨p, s.freeList.take n, false⟩) rfl (fun r hr => .inr ?_) j q hj
    exact Option.some.inj hr ▸ ho
  | post => exact State.holdersKept_setLife (State.setChan_descs ..) nofun
  | postTaken hc _ _ _ _ _ htw =>
    refine State.holdersKept_setLife (State.setChan_descs ..) fun p hp => .inr ?_
    obtain ⟨_, hw2⟩ := State.waiterLaw_iff.1 hw
    obtain ⟨htake, _⟩ := hw2 _ _ hc
    exact Option.some.inj hp ▸ htake (by simp [htw])
  | take hc hf hl ho =>
    exact State.holdersKept_setLife (State.setChan_descs ..) fun p hp => .inr (Option.some.inj hp ▸ ho)
  | @collect c a i rest b t r hc hf hl ho =>
    refine State.holdersKept_setLife (State.setChan_descs ..) fun p hp => .inr ?_
    obtain rfl : b.origin = p := Option.some.inj hp
    have htr : (s.desc i).life.transit = some (b.origin, c, none) := by
      simp [hl, Life.transit, hq.head_returning hc hf hl]
    rwa [← ht.origin htr hc]
  | @comeCollect a i w ws b t p x n hl hc ho =>
    refine State.holdersKept_setLife (State.setChan_descs ..) fun q hq => .inr ?_
    obtain rfl : b.origin = q := Option.some.inj hq
    have htr : (s.desc i).life.transit = some (b.origin, t.channel, some p) := by simp [hl, Life.transit]
    rwa [← ht.origin htr hc]
  | comeReturn => exact State.holdersKept_setLife (State.setChan_descs ..) nofun
  | refill hl =>
    refine State.holdersKept_setLife rfl fun p hp => .inl ?_
    rw [Desc.holder, hl]
    exact hp

theorem State.statesKept_of_hpis {s t : State} (h : ∀ p, (t.hpi p).state = (s.hpi p).state) : s.statesKept t :=
  fun p i hi => by rwa [h]

theorem State.statesKept_of_ports {s t : State} (h : t.ports = s.ports) : s.statesKept t :=
  State.statesKept_of_hpis fun p => by rw [State.hpi_of_ports h]

theorem State.freeDesc_ports (s : State) (i : DescIx) : (s.freeDesc i).ports = s.ports := by
  obtain ⟨d, x, f, r, n, h⟩ := s.freeDesc_frame i
  rw [h]

theorem State.allocTo_ports (s : State) (p : Port) (n : Nat) (i : DescIx) : (s.allocTo p n i).ports = s.ports := by
  obtain ⟨x, h⟩ := s.allocTo_frame p n i
  rw [h]
  rfl

theorem Move.statesKept {k : Option ChanIx} {s t : State} (h : Move k s t) : s.statesKept t := by
  cases h with
  | tells h => exact State.statesKept_of_hpis fun p => (h.hpis p).state
  | free => exact State.statesKept_of_ports (s.freeDesc_ports _)
  | freeForward => exact State.statesKept_of_ports (State.freeDesc_ports ..)
  | freeReturn => exact State.statesKept_of_ports (State.freeDesc_ports ..)
  | dropAlloc p tag => exact State.statesKept_of_ports (s.dropAllocWait_ports p tag)
  | @endTest x y pass => cases pass <;> exact State.statesKept_of_ports rfl
  | upset w flips cells level => exact State.statesKept_of_ports (by rw [noteUpset_frame s w flips cells]; rfl)
  | depart =>
    intro q i hi
    rw [State.dropHoldings_state]
    split_ifs
    · refine ⟨nofun, fun next hn => ?_⟩
      obtain rfl := PortState.reclaiming.inj hn
      exact Fin.zero_le i
    · exact hi
  | attach _ _ _ hh =>
    intro q i hi
    rw [State.hpi_setHpi]
    split_ifs
    · rw [hh]
      exact PortState.mayHold_online i
    · exact hi
  | _ => exact State.statesKept_of_ports rfl

theorem Shift.statesKept {k : Option ChanIx} {s t : State} (h : Shift k s t) : s.statesKept t := by
  cases h with
  | allocate => exact State.statesKept_of_ports (State.allocTo_ports ..)
  | _ => exact State.statesKept_of_ports rfl

/-! ### The laws together -/

/-- The laws of traffic, waits and holders (R11, R31, R84, R161, R168). -/
structure State.holdingLaw (s : State) : Prop where
  traffic : s.trafficLaw
  waiters : s.waiterLaw
  walk : s.walkLaw

theorem Run.holdingLaw {s t : State} (h : Run s t) (hs : s.holdingLaw) : t.holdingLaw := by
  refine h.keeps (P := State.holdingLaw) (fun _ u v hm ⟨htr, hw, hk⟩ => ?_) (fun _ u v hm ⟨htr, hw, hk⟩ => ?_)
    (fun u v hm ⟨⟨hq, ht⟩, hw, hk⟩ => ?_) hs
  · exact ⟨hm.trafficLaw htr, hm.waiterLaw hw, hk.kept (hm.holdersKept htr) hm.statesKept⟩
  · exact ⟨hm.trafficLaw htr, hm.waiterLaw hw, hk.kept (hm.holdersKept htr hw) hm.statesKept⟩
  · have hdescs : v.descs = u.descs := by cases hm <;> rfl
    have hports : v.ports = u.ports := by cases hm <;> rfl
    exact ⟨⟨hm.queueLaw hq, hm.transitLaw ht⟩, hm.waiterLaw hw,
      hk.kept (State.holdersKept_of_descs hdescs) (State.statesKept_of_ports hports)⟩

/-- Whatever leaves the allocation wait list, the channels, the descriptors and the port states alone. -/
theorem State.holdingLaw_of_records {s t : State} (hs : s.holdingLaw) (ha : t.allocWaits = s.allocWaits)
    (hc : t.chans = s.chans) (hd : t.descs = s.descs) (hp : ∀ p, (t.hpi p).state = (s.hpi p).state) : t.holdingLaw := by
  obtain ⟨htr, hw, hk⟩ := hs
  refine ⟨State.trafficLaw_of_records htr hc hd, State.waiterLaw_of_chans hw (fun q hq => ?_) (fun e he => ha ▸ he) hc,
    hk.kept (State.holdersKept_of_descs hd) (State.statesKept_of_hpis hp)⟩
  rw [State.online_iff] at hq ⊢
  rw [hp, hq]

/-- The HPI of one port changes and keeps its state. -/
theorem State.holdingLaw_setHpi {s : State} {p : Port} {h : Hpi} (hs : s.holdingLaw) (hst : h.state = (s.hpi p).state) :
    (s.setHpi p h).holdingLaw := by
  refine State.holdingLaw_of_records hs rfl rfl rfl fun q => ?_
  rw [State.hpi_setHpi]
  split_ifs with hpq
  · exact hpq ▸ hst
  · rfl

/-! ### The reclaim walk -/

theorem State.freeDesc_holder {s : State} {i : DescIx} : ((s.freeDesc i).desc i).holder = none := by
  by_cases hb : (s.desc i).buf = none
  · simp only [State.freeDesc, hb]
    rw [Desc.holder, (Desc.buf_eq_none_iff _).1 hb]
  · rw [s.freeDesc_desc_same i hb]
    rfl

/-- A buffer that arrives at the return side is in the return queue or held by its origin. -/
theorem State.arrive_holder {s : State} {c : ChanIx} {i : DescIx} {b : Buf} {t : Traffic} {r : Came} {a : Active}
    (hc : s.chan c = .active a) {p : Port} (hp : ((s.arrive c i b t r).desc i).holder = some p) : b.origin = p := by
  cases hw : a.collectWaits with
  | nil =>
    rw [State.arrive_returned hc hw, State.desc_setLife_same] at hp
    exact nomatch hp
  | cons w ws =>
    rw [State.arrive_collected hc hw, State.desc_of_descs (State.complete_descs ..), State.desc_setLife_same] at hp
    exact Option.some.inj hp

/-- After the revocation of a descriptor its holder, if it has one, is the ONLINE producer of its channel. -/
theorem State.revoke_holder {s : State} {i : DescIx} (hs : s.trafficLaw) (hi : (s.desc i).state = .held) (byExpiry : Bool)
    {p : Port} (hp : ((s.revoke i byExpiry).desc i).holder = some p) : s.online p = true := by
  obtain ⟨_, ht⟩ := hs
  obtain ⟨b, t, q, x, n, hl⟩ : ∃ b t q x n, (s.desc i).life = .held b t q x n := by
    cases hl : (s.desc i).life <;> simp [Desc.state, hl] at hi ⊢
  have htr : (s.desc i).life.transit = some (b.origin, t.channel, some q) := by simp [hl, Life.transit]
  obtain ⟨a, hc, horigin, _⟩ := State.transitLaw_iff'.1 ht i _ htr
  dsimp only at hc horigin
  have hdescs : (s.revoke i byExpiry).descs = (if s.comesBack t.channel then s.comeBack i b t ⟨.revoked, none⟩ else
      s.freeDesc i).descs := by
    simp only [State.revoke, hl, State.unbindIfDrained_descs]
    split_ifs <;> simp
  rw [State.desc_of_descs hdescs] at hp
  split_ifs at hp with hback
  · rw [State.comeBack, State.desc_of_descs (State.noticeReturns_descs ..)] at hp
    rw [← State.arrive_holder hc hp, ← horigin]
    simp only [State.comesBack, hc, Chan.params?, Option.any_some, Bool.and_eq_true] at hback
    exact hback.2
  · rw [State.freeDesc_holder] at hp
    exact nomatch hp

/-- A reclaim walk leaves the descriptor it reaches to no holder that is not ONLINE. -/
theorem State.walkAt_holder {s : State} {p : Port} {i : DescIx} (hs : s.trafficLaw) (hp : s.online p = false) :
    ((s.walkAt p i).desc i).holder ≠ some p := by
  intro h
  unfold State.walkAt at h
  split at h
  next hheld =>
    split at h
    next hst => exact absurd (State.revoke_holder hs hst false h) (by simp [hp])
    next => exact nomatch (State.freeDesc_holder.symm.trans h)
    next => exact nomatch (State.freeDesc_holder.symm.trans h)
    all_goals next hst => cases hl : (s.desc i).life <;> simp [Desc.state, Desc.holder, hl] at hst hheld
  next hno => exact hno h

/-- The state of a port after the step of its walk at `i` lets it hold what lies behind. -/
theorem PortState.mayHold_next {i j : DescIx} (h : i < j) :
    (if hn : i.val + 1 < 128 then PortState.reclaiming ⟨i.val + 1, hn⟩ else .offline).mayHold j := by
  have hj := j.isLt
  have hij : i.val < j.val := h
  rw [dif_pos (by omega)]
  refine ⟨nofun, fun next hn => ?_⟩
  obtain rfl := PortState.reclaiming.inj hn
  exact hij

/-- One step of a reclaim walk keeps the laws: no descriptor up to the one it reaches is left to its port (R168). -/
theorem State.walkStep_holdingLaw {s : State} {p : Port} {i : DescIx} (hs : s.holdingLaw)
    (hi : (s.hpi p).state = .reclaiming i) : (s.walkStep p).holdingLaw := by
  obtain ⟨htr, hw, hk⟩ := (run_walkAt s p i).holdingLaw hs
  have hst := s.walkAt_state p p i
  have hoff : s.online p = false := by
    rw [← Bool.not_eq_true, State.online_iff, hi]
    simp
  rw [State.walkStep_eq hi]
  refine ⟨State.trafficLaw_of_records htr rfl rfl, State.waiterLaw_of_chans hw (fun q hq => ?_) (fun _ => id) rfl,
    fun q j hj => ?_⟩
  · rw [State.online_iff] at hq ⊢
    rw [State.hpi_setHpi, if_neg]
    · exact hq
    · rintro rfl
      rw [hst, hi] at hq
      exact nomatch hq
  · rw [State.desc_setHpi] at hj
    rw [State.hpi_setHpi]
    by_cases hpq : p = q
    · subst hpq
      have hij : i ≤ j := (hk p j hj).2 i (hst.trans hi)
      have hne : i ≠ j := fun e => State.walkAt_holder hs.traffic hoff (e ▸ hj)
      rw [if_pos rfl]
      exact PortState.mayHold_next (lt_of_le_of_ne hij hne)
    · rw [if_neg hpq]
      exact hk q j hj

/-! ### Every command -/

/-- A re-examination serves ONLINE ports alone, as every waiting entry belongs to one. -/
theorem State.reexamine_holdingLaw {s : State} (hs : s.holdingLaw) : s.reexamine.holdingLaw := by
  obtain ⟨htr, hw, hk⟩ := hs
  obtain ⟨hw', hk'⟩ : s.reexamine.waiterLaw ∧ s.reexamine.walkLaw := by
    refine State.reexamine_keeps (P := fun u => u.waiterLaw ∧ u.walkLaw)
      (fun n _ => ⟨State.waiterLaw_of_chans hw (fun _ => id) (fun _ => id) rfl, hk⟩) (fun u e rest i ⟨hw, hk⟩ he hg => ?_)
      ⟨hw, hk⟩
    have hon : u.online e.port = true := (State.waiterLaw_iff.1 hw).1 e (by simp [he])
    have hrest : ({ u with allocWaits := rest } : State).waiterLaw :=
      State.waiterLaw_of_chans hw (fun _ => id) (fun x hx => he ▸ List.mem_cons_of_mem _ hx) rfl
    obtain ⟨y, hy⟩ := State.allocTo_frame { u with allocWaits := rest } e.port e.count i
    have htell := State.complete_tells (s := State.allocTo { u with allocWaits := rest } e.port e.count i) (p := e.port)
      e.tag .done { blockCount := e.count, v0 := State.handle { u with allocWaits := rest } i }
    refine ⟨Move.waiterLaw (k := none) (.tells htell) (State.allocTo_waiterLaw hrest _ _ _), hk.kept ?_ ?_⟩
    · intro j p hj
      rw [State.satisfy, htell.desc, State.desc_of_descs (State.allocTo_descs ..)] at hj
      exact State.holdersKept_setLife (s := u) (l := .filling ⟨e.port, u.freeList.take e.count, false⟩) rfl
        (fun r hr => .inr (Option.some.inj hr ▸ hon)) j p hj
    · refine State.statesKept_of_hpis fun p => (htell.hpis p).state.trans ?_
      rw [State.hpi_of_ports (State.allocTo_ports ..)]
      rfl
  exact ⟨State.reexamine_trafficLaw htr, hw', hk'⟩

theorem State.tickOnce_holdingLaw {s : State} (h : s.resetIn = false) (hs : s.holdingLaw) : s.tickOnce.holdingLaw := by
  obtain ⟨htr, hw, hk⟩ := hs
  have hhpi (p : Port) : s.tickOnce.hpi p = s.hpi p := by rw [State.tickOnce_eq h]; rfl
  have hon (p : Port) : s.tickOnce.online p = s.online p := by rw [State.online, hhpi]; rfl
  refine ⟨State.tickOnce_trafficLaw h htr, ?_, hk.kept (fun i p hp => .inl ?_)
    (State.statesKept_of_hpis fun p => by rw [hhpi])⟩
  · obtain ⟨hw1, hw2⟩ := State.waiterLaw_iff.1 hw
    refine State.waiterLaw_iff.2 ⟨fun e he => ?_, fun c => ?_⟩
    · rw [State.tickOnce_eq h] at he
      obtain ⟨e', he', rfl⟩ := List.mem_map.1 he
      rw [hon]
      exact hw1 e' he'
    · rw [State.tickOnce_chan h]
      cases hx : s.chan c with
      | unbound => exact Chan.waitersOk_closed rfl
      | offered => exact Chan.waitersOk_closed rfl
      | active a =>
        obtain ⟨ht, hc⟩ := hw2 c a hx
        refine Chan.waitersOk_active.2 ⟨fun hn => ?_, fun hn => ?_⟩
        · rw [hon]
          exact ht fun e => hn (by simp [e])
        · rw [hon]
          exact hc fun e => hn (by simp [e])
  · rw [State.tickOnce_desc h, Desc.count] at hp
    split at hp
    next hl =>
      rw [Desc.holder, hl]
      exact hp
    all_goals exact hp

theorem State.deviceReset_holdingLaw (s : State) : s.deviceReset.holdingLaw := by
  refine ⟨s.deviceReset_trafficLaw, State.waiterLaw_iff.2 ⟨fun e he => ?_, fun c => ?_⟩, fun p i hp => ?_⟩
  · simp [State.deviceReset, State.reset] at he
  · rw [s.deviceReset_chan]
    exact Chan.waitersOk_closed rfl
  · rw [s.deviceReset_desc] at hp
    exact nomatch hp

theorem Effect.holdingLaw {c : Instr} {s t : State} (h : Effect c s t) (hs : s.holdingLaw) : t.holdingLaw := by
  cases h with
  | run h => exact h.holdingLaw hs
  | read _ h ht =>
    obtain ⟨w, l, rfl⟩ := ht
    exact State.holdingLaw_setHpi (h.holdingLaw hs) rfl
  | grant _ _ ht =>
    exact State.holdingLaw_of_records hs ht.allocWaits ht.chans ht.descs fun p => (ht.hpis p).state
  | reexamine => exact State.reexamine_holdingLaw hs
  | tick h => exact State.tickOnce_holdingLaw h hs
  | walk h => exact State.walkStep_holdingLaw hs h
  | resetAssert ho h =>
    have hdrop : (s.dropHoldings _).holdingLaw := Run.holdingLaw (.ofPath (.one (.depart ho))) hs
    exact Run.holdingLaw (.calm h) (State.holdingLaw_setHpi hdrop rfl)
  | assertOnly => exact State.holdingLaw_setHpi hs rfl
  | resetRelease => exact State.holdingLaw_setHpi hs rfl
  | deviceReset => exact s.deviceReset_holdingLaw
  | _ => exact State.holdingLaw_of_records hs rfl rfl rfl fun _ => rfl

/-- Settles O11: every effect of a command keeps the laws of waits and holders. -/
theorem departedPortsHoldNothing : Obligations.DepartedPortsHoldNothing := by
  intro c s t hqueue htransit hwait hwalk hexec
  obtain ⟨_, hw, hk⟩ := (effect_of_exec hexec).holdingLaw ⟨⟨hqueue, htransit⟩, hwait, hwalk⟩
  exact ⟨hw, hk⟩

end Sys2Proof.Machine

/-!
PROOFS. The wait list is never left behind: whatever could let the head of the allocation wait list be served calls for a
re-examination, and a re-examination ends at a head that cannot be (R28, R29).
-/

namespace Sys2Proof.Machine

/-! ### What can be given -/

theorem State.canGive_eq_none_iff {s : State} {n : Nat} :
    s.canGive n = none ↔ s.freeList.length < n ∨ ∀ i, (s.desc i).state ≠ .free := by
  unfold State.canGive State.lowestFree
  split_ifs with h
  · simp [List.find?_eq_none, Nat.not_lt.2 h]
  · simp [Nat.lt_of_not_le h]

/-- `n` blocks could not be given before and cannot now, for every `n`. -/
def State.givesNoMore (s t : State) : Prop := ∀ n, s.canGive n = none → t.canGive n = none

/-- No block joined the free list and no descriptor became FREE. -/
theorem State.givesNoMore_of {s t : State} (hf : t.freeList.length ≤ s.freeList.length)
    (hd : ∀ i, (t.desc i).state = .free → (s.desc i).state = .free) : s.givesNoMore t := by
  intro n hn
  rw [State.canGive_eq_none_iff] at hn ⊢
  obtain hn | hn := hn
  · exact .inl (by omega)
  · exact .inr fun i hi => hn i (hd i hi)

theorem State.givesNoMore_of_descs {s t : State} (hf : t.freeList = s.freeList) (hd : t.descs = s.descs) :
    s.givesNoMore t :=
  State.givesNoMore_of (by rw [hf]) fun i hi => by rwa [State.desc_of_descs hd] at hi

theorem State.givesNoMore_setLife {s u : State} {i : DescIx} {l : Life} (hf : u.freeList = s.freeList)
    (hd : u.descs = s.descs) (hl : l ≠ .free) : s.givesNoMore (u.setLife i l) := by
  refine State.givesNoMore_of (le_of_eq (congrArg List.length hf)) fun j hj => ?_
  rw [State.desc_setLife] at hj
  split_ifs at hj
  · exact absurd ((Desc.state_eq_free_iff _).1 hj) hl
  · rwa [State.desc_of_descs hd] at hj

/-! ### The law under one event -/

/-- Nothing more can be given, and the head of the wait list was its head before. -/
theorem State.reexamLaw.kept {s t : State} (hs : s.reexamLaw) (hr : t.reexamsDue = s.reexamsDue) (hg : s.givesNoMore t)
    (hw : ∀ e rest, t.allocWaits = e :: rest → ∃ rest', s.allocWaits = e :: rest') : t.reexamLaw := by
  intro h0 e rest he
  obtain ⟨rest', he'⟩ := hw e rest he
  exact hg _ (hs (hr ▸ h0) e rest' he')

theorem State.reexamLaw_of_waits {s t : State} (hs : s.reexamLaw) (hr : t.reexamsDue = s.reexamsDue) (hg : s.givesNoMore t)
    (hw : t.allocWaits = s.allocWaits) : t.reexamLaw :=
  hs.kept hr hg fun _ rest he => ⟨rest, hw ▸ he⟩

/-- A re-examination is owed. -/
theorem State.reexamLaw_of_due {t : State} {n : Nat} (h : t.reexamsDue = n + 1) : t.reexamLaw := fun h0 =>
  absurd (h.symm.trans h0) (Nat.succ_ne_zero n)

theorem State.reexamLaw_freeDesc {s : State} (hs : s.reexamLaw) (i : DescIx) : (s.freeDesc i).reexamLaw := by
  unfold State.freeDesc
  split
  next => exact hs
  next => exact State.reexamLaw_of_due rfl

theorem State.reexamLaw_dropAllocWait {s : State} (hs : s.reexamLaw) (p : Port) (tag : Tag) :
    (s.dropAllocWait p tag).reexamLaw := by
  unfold State.dropAllocWait
  dsimp only
  split
  next => exact State.reexamLaw_of_due rfl
  next h =>
    refine hs.kept rfl (State.givesNoMore_of_descs rfl rfl) fun e rest he => ?_
    dsimp only at he
    cases hw : s.allocWaits with
    | nil => simp [hw] at he
    | cons x xs =>
      simp only [hw, List.head?_cons, Option.any_some, Bool.not_eq_true] at h
      rw [hw, List.eraseP_cons_of_neg (by simpa using h)] at he
      exact ⟨xs, by rw [(List.cons.inj he).1]⟩

theorem State.reexamLaw_dropHoldings {s : State} (hs : s.reexamLaw) (p : Port) : (s.dropHoldings p).reexamLaw := by
  unfold State.dropHoldings
  dsimp only
  split
  next => exact State.reexamLaw_of_due rfl
  next h =>
    refine hs.kept rfl (State.givesNoMore_of_descs rfl rfl) fun e rest he => ?_
    dsimp only [State.setHpi_allocWaits] at he
    cases hw : s.allocWaits with
    | nil => simp [hw] at he
    | cons x xs =>
      simp only [hw, List.head?_cons, Option.any_some, decide_eq_true_eq] at h
      rw [hw, List.filter_cons_of_pos (by simpa using h)] at he
      exact ⟨xs, by rw [(List.cons.inj he).1]⟩

theorem Move.reexamLaw {k : Option ChanIx} {s t : State} (h : Move k s t) (hs : s.reexamLaw) : t.reexamLaw := by
  have hsame {u : State} (hr : u.reexamsDue = s.reexamsDue) (hw : u.allocWaits = s.allocWaits)
      (hf : u.freeList = s.freeList) (hd : u.descs = s.descs) : u.reexamLaw :=
    State.reexamLaw_of_waits hs hr (State.givesNoMore_of_descs hf hd) hw
  cases h with
  | tells h => exact hsame h.reexamsDue h.allocWaits h.freeList h.descs
  | free => exact State.reexamLaw_freeDesc hs _
  | freeForward => exact State.reexamLaw_freeDesc (hsame (u := s.setChan ..) rfl rfl rfl rfl) _
  | freeReturn => exact State.reexamLaw_freeDesc (hsame (u := s.setChan ..) rfl rfl rfl rfl) _
  | bounceCollect =>
    exact State.reexamLaw_of_waits hs rfl (State.givesNoMore_setLife (State.setChan_freeList ..) (State.setChan_descs ..) nofun) rfl
  | bounceReturn =>
    exact State.reexamLaw_of_waits hs rfl (State.givesNoMore_setLife (State.setChan_freeList ..) (State.setChan_descs ..) nofun) rfl
  | @joinAllocs e ho hq hg =>
    intro h0 e' rest he
    cases hw : s.allocWaits with
    | nil =>
      rw [hw] at he
      obtain rfl := (List.cons.inj he).1
      exact hg hw
    | cons x xs =>
      rw [hw] at he
      obtain rfl := (List.cons.inj he).1
      exact hs h0 x xs hw
  | dropAlloc p tag => exact State.reexamLaw_dropAllocWait hs p tag
  | damage =>
    refine State.reexamLaw_of_waits hs rfl (State.givesNoMore_of le_rfl fun j hj => ?_) rfl
    rw [State.desc_setDesc] at hj
    split_ifs at hj with hij
    · rw [Desc.state_withDamage] at hj
      exact hij ▸ hj
    · exact hj
  | renew => exact State.reexamLaw_of_waits hs rfl (State.givesNoMore_setLife rfl rfl nofun) rfl
  | endTest pass =>
    cases pass
    · exact hsame rfl rfl rfl rfl
    · exact State.reexamLaw_of_due rfl
  | upset w flips cells level =>
    rw [noteUpset_frame s w flips cells]
    exact hsame rfl rfl rfl rfl
  | depart => exact State.reexamLaw_dropHoldings hs _
  | _ => exact hsame rfl rfl rfl rfl

theorem Shift.reexamLaw {k : Option ChanIx} {s t : State} (h : Shift k s t) (hs : s.reexamLaw) : t.reexamLaw := by
  cases h with
  | @allocate p n i =>
    obtain ⟨x, h⟩ := s.allocTo_frame p n i
    rw [h]
    refine State.reexamLaw_of_waits hs rfl (State.givesNoMore_of ?_ fun j hj => ?_) rfl
    · simp
    · change ((s.setLife i (.filling ⟨p, s.freeList.take n, false⟩)).desc j).state = .free at hj
      rw [State.desc_setLife] at hj
      split_ifs at hj
      · exact nomatch hj
      · exact hj
  | refill => exact State.reexamLaw_of_waits hs rfl (State.givesNoMore_setLife rfl rfl nofun) rfl
  | _ =>
    exact State.reexamLaw_of_waits hs rfl (State.givesNoMore_setLife (State.setChan_freeList ..) (State.setChan_descs ..) nofun) rfl

theorem Run.reexamLaw {s t : State} (h : Run s t) (hs : s.reexamLaw) : t.reexamLaw := by
  refine h.keeps (P := State.reexamLaw) (fun _ _ _ => Move.reexamLaw) (fun _ _ _ => Shift.reexamLaw) (fun u v hb hu => ?_) hs
  cases hb <;> exact hu

/-! ### The re-examination -/

theorem State.satisfy_allocWaits (s : State) (p : Port) (tag : Tag) (n : Nat) (i : DescIx) :
    (s.satisfy p tag n i).allocWaits = s.allocWaits := by
  obtain ⟨x, h⟩ := s.allocTo_frame p n i
  rw [State.satisfy, (State.complete_tells ..).allocWaits, h]
  rfl

/-- The service of heads, given one step for each entry, ends at a head that cannot be served. -/
theorem State.serveHeads_ends {n : Nat} {s : State} (hn : s.allocWaits.length ≤ n) {e : AllocWait} {rest : List AllocWait}
    (he : (State.serveHeads n s).allocWaits = e :: rest) : (State.serveHeads n s).canGive e.count = none := by
  induction n generalizing s with
  | zero =>
    have hnil : s.allocWaits = [] := List.length_eq_zero_iff.1 (Nat.le_zero.1 hn)
    exact nomatch hnil.symm.trans he
  | succ n ih =>
    unfold State.serveHeads at he ⊢
    cases hw : s.allocWaits with
    | nil =>
      simp only [hw] at he
      exact nomatch he
    | cons x xs =>
      cases hg : s.canGive x.count with
      | none =>
        simp only [hw, hg] at he ⊢
        rw [← (List.cons.inj he).1]
        exact hg
      | some i =>
        simp only [hw, hg] at he ⊢
        refine ih ?_ he
        rw [State.satisfy_allocWaits]
        simpa [hw] using hn

theorem State.reexamine_reexamLaw {s : State} (hs : s.reexamLaw) : s.reexamine.reexamLaw := by
  unfold State.reexamine
  split
  next => exact hs
  next n _ => exact fun _ e rest he => State.serveHeads_ends (s := { s with reexamsDue := n }) le_rfl he

/-- Settles O12: every effect of a command calls for a re-examination where a head could come to be served. -/
theorem reexaminationLawKept : Obligations.ReexaminationLawKept := by
  intro c s t hs hexec
  cases effect_of_exec hexec with
  | run h => exact h.reexamLaw hs
  | read _ h ht =>
    obtain ⟨w, l, rfl⟩ := ht
    exact h.reexamLaw hs
  | grant _ _ ht =>
    exact State.reexamLaw_of_waits hs ht.reexamsDue (State.givesNoMore_of_descs ht.freeList ht.descs) ht.allocWaits
  | reexamine => exact State.reexamine_reexamLaw hs
  | tick h =>
    have hg : s.givesNoMore s.tickOnce := State.givesNoMore_of (by rw [State.tickOnce_eq h]) fun i hi => by
      rw [State.tickOnce_desc h, Desc.count] at hi
      split at hi
      next => exact nomatch hi
      all_goals exact hi
    rw [State.tickOnce_eq h] at hg ⊢
    intro h0 e rest he
    obtain ⟨x, xs, hw, rfl, _⟩ := List.map_eq_cons_iff.1 he
    exact hg _ (hs h0 x xs hw)
  | walk h =>
    rw [State.walkStep_eq h]
    exact (run_walkAt s _ _).reexamLaw hs
  | @resetAssert _ _ p ho h =>
    have hdrop : (s.dropHoldings p).reexamLaw := State.reexamLaw_dropHoldings hs p
    exact Run.reexamLaw (.calm h) hdrop
  | deviceReset => exact fun _ e rest he => nomatch he
  | _ => exact hs

end Sys2Proof.Machine

/-!
PROOFS. The quotas. Only GRANT and device reset move quota (R34). A port's charge grows by an ALLOCATE alone, which was checked
against its quota when it was presented, whether it is satisfied then or waits (R24, R25).
-/

namespace Sys2Proof.Machine

/-! ### The charge of one descriptor -/

/-- The blocks that the descriptor charges to `p` (R3). -/
def Desc.charge (d : Desc) (p : Port) : Nat :=
  match d.buf with
  | none => 0
  | some b => if b.origin = p then b.blocks.length else 0

theorem State.charged_eq (s : State) (p : Port) : s.charged p = ∑ i, (s.desc i).charge p := by
  rw [State.charged, s.descs_toList, List.map_map, Fin.sum_univ_def]
  rfl

theorem State.charged_le {s t : State} {p : Port} (h : ∀ i, (t.desc i).charge p ≤ (s.desc i).charge p) :
    t.charged p ≤ s.charged p := by
  rw [State.charged_eq, State.charged_eq]
  exact Finset.sum_le_sum fun i _ => h i

/-- One descriptor's charge grows by `n` at most, and no other grows. -/
theorem State.charged_le_add {s t : State} {p : Port} {n : Nat} {j : DescIx}
    (hj : (t.desc j).charge p ≤ (s.desc j).charge p + n) (h : ∀ i, i ≠ j → (t.desc i).charge p ≤ (s.desc i).charge p) :
    t.charged p ≤ s.charged p + n := by
  have hn : ∑ i : DescIx, (if i = j then n else 0) = n := by simp
  rw [State.charged_eq, State.charged_eq, ← hn, ← Finset.sum_add_distrib]
  refine Finset.sum_le_sum fun i _ => ?_
  by_cases hij : i = j
  · subst hij
    simpa using hj
  · simpa [hij] using h i hij

/-- One life has one charge. -/
theorem Desc.sameLife.charge {d d' : Desc} (h : d.sameLife d') (p : Port) : d'.charge p = d.charge p := by
  obtain ⟨ho, hb, _⟩ := h
  unfold Desc.blockList at hb
  unfold Desc.charge
  cases hd : d.buf <;> cases hd' : d'.buf <;> simp_all

theorem Desc.passes.charge_le {d d' : Desc} (h : d.passes d') (p : Port) : d'.charge p ≤ d.charge p := by
  obtain hf | ⟨hl, _⟩ := h
  · rw [Desc.state_eq_free_iff] at hf
    simp [Desc.charge, Desc.buf, hf]
  · exact (hl.charge p).le

theorem State.charged_of_descs {s t : State} (h : t.descs = s.descs) (p : Port) : t.charged p = s.charged p := by
  rw [State.charged, State.charged, h]

/-! ### The waiting demand -/

theorem State.waitingDemand_le {s t : State} (h : t.allocWaits.Sublist s.allocWaits) (p : Port) :
    t.waitingDemand p ≤ s.waitingDemand p :=
  (h.map _).sum_le_sum fun _ _ => Nat.zero_le _

theorem State.waitingDemand_cons {s : State} {e : AllocWait} {rest : List AllocWait} (h : s.allocWaits = e :: rest)
    (p : Port) :
    s.waitingDemand p = (if e.port = p then e.count else 0) + State.waitingDemand { s with allocWaits := rest } p := by
  simp [State.waitingDemand, h]

/-! ### The laws under one event -/

/-- No charge, no waiting demand and no quota moves up or down but down for the first two. -/
theorem State.demandLaw_of_le {s t : State} (hs : s.demandLaw) (hq : t.quotas = s.quotas)
    (hc : ∀ p, t.charged p ≤ s.charged p) (hw : t.allocWaits.Sublist s.allocWaits) : t.demandLaw := fun p => by
  have h1 := hs p
  have h2 := hc p
  have h3 := State.waitingDemand_le hw p
  rw [hq]
  omega

theorem State.freeDesc_allocWaits (s : State) (i : DescIx) : (s.freeDesc i).allocWaits = s.allocWaits := by
  obtain ⟨d, x, f, r, n, h⟩ := s.freeDesc_frame i
  rw [h]

theorem State.allocTo_allocWaits (s : State) (p : Port) (n : Nat) (i : DescIx) :
    (s.allocTo p n i).allocWaits = s.allocWaits := by
  obtain ⟨x, h⟩ := s.allocTo_frame p n i
  rw [h]
  rfl

theorem State.dropAllocWait_sublist (s : State) (p : Port) (tag : Tag) :
    (s.dropAllocWait p tag).allocWaits.Sublist s.allocWaits := by
  unfold State.dropAllocWait
  dsimp only
  split <;> exact List.eraseP_sublist

/-- A move takes entries out of the allocation wait list, or appends one that the quota of its port admits. -/
theorem Move.allocWaits {k : Option ChanIx} {s t : State} (h : Move k s t) : t.allocWaits.Sublist s.allocWaits ∨
    ∃ e, s.charged e.port + s.waitingDemand e.port + e.count ≤ s.quotas.get e.port ∧
      t.allocWaits = s.allocWaits ++ [e] := by
  have hsame {u : State} (hu : u.allocWaits = s.allocWaits) : u.allocWaits.Sublist s.allocWaits := hu ▸ List.Sublist.refl _
  cases h with
  | tells h => exact .inl (hsame h.allocWaits)
  | free => exact .inl (hsame (s.freeDesc_allocWaits _))
  | freeForward => exact .inl (hsame (State.freeDesc_allocWaits ..))
  | freeReturn => exact .inl (hsame (State.freeDesc_allocWaits ..))
  | joinAllocs _ hq => exact .inr ⟨_, hq, rfl⟩
  | dropAlloc p tag => exact .inl (s.dropAllocWait_sublist p tag)
  | endTest pass => cases pass <;> exact .inl (List.Sublist.refl _)
  | upset w flips cells level =>
    rw [noteUpset_frame s w flips cells]
    exact .inl (List.Sublist.refl _)
  | depart =>
    rw [State.dropHoldings_allocWaits]
    exact .inl List.filter_sublist
  | _ => exact .inl (List.Sublist.refl _)

theorem Move.quotas {k : Option ChanIx} {s t : State} (h : Move k s t) : t.quotas = s.quotas :=
  (State.fixed_eq_iff.1 h.keepsPorts.fixed).2.2.2.1

theorem Move.demandLaw {k : Option ChanIx} {s t : State} (h : Move k s t) (hs : s.demandLaw) : t.demandLaw := by
  have hc (p : Port) : t.charged p ≤ s.charged p := State.charged_le fun i => (h.descsPass i).charge_le p
  obtain hw | ⟨e, hadmit, hw⟩ := h.allocWaits
  · exact State.demandLaw_of_le hs h.quotas hc hw
  · intro p
    have h1 := hs p
    have h2 := hc p
    have h3 : t.waitingDemand p = s.waitingDemand p + if e.port = p then e.count else 0 := by
      simp [State.waitingDemand, hw]
    rw [h.quotas, h3]
    split_ifs with hp
    · subst hp
      omega
    · omega

/-- An allocation charges its port alone, with the blocks it takes. -/
theorem State.charged_allocTo {s : State} {i : DescIx} (p : Port) (n : Nat) (q : Port) :
    (s.allocTo p n i).charged q ≤ s.charged q + if p = q then n else 0 := by
  have hd (j : DescIx) : (s.allocTo p n i).desc j = (s.setLife i (.filling ⟨p, s.freeList.take n, false⟩)).desc j :=
    State.desc_of_descs (s.allocTo_descs p n i) j
  refine State.charged_le_add (j := i) ?_ fun j hj => ?_
  · rw [hd, State.desc_setLife_same]
    have hlen : (s.freeList.take n).length ≤ n := List.length_take_le ..
    simp only [Desc.charge, Desc.buf]
    split_ifs <;> omega
  · rw [hd, State.desc_setLife_ne _ _ (Ne.symm hj)]

theorem Shift.demandLaw {k : Option ChanIx} {s t : State} (h : Shift k s t) (hs : s.demandLaw) : t.demandLaw := by
  have hset {u : State} {i : DescIx} {l : Life} (hq : u.quotas = s.quotas) (hw : u.allocWaits = s.allocWaits)
      (hd : u.descs = s.descs) (hl : (Desc.mk (u.desc i).generation l).buf = (s.desc i).buf) : (u.setLife i l).demandLaw := by
    have hsub : (u.setLife i l).allocWaits.Sublist s.allocWaits := hw ▸ List.Sublist.refl _
    refine State.demandLaw_of_le hs hq (fun p => State.charged_le fun j => ?_) hsub
    rw [State.desc_setLife]
    split_ifs with hij
    · subst hij
      simp [Desc.charge, hl]
    · rw [State.desc_of_descs hd]
  cases h with
  | @allocate p n i ho hi hn hq =>
    obtain ⟨x, hx⟩ := s.allocTo_frame p n i
    have hquota : (s.allocTo p n i).quotas = s.quotas := by rw [hx]; rfl
    intro q
    have h1 := hs q
    have h2 := State.charged_allocTo (s := s) (i := i) p n q
    rw [hquota, State.waitingDemand, s.allocTo_allocWaits, ← State.waitingDemand]
    split_ifs at h2 with hpq
    · subst hpq
      omega
    · omega
  | post _ _ _ hl => exact hset (u := s.setChan ..) rfl rfl rfl (by simp [Desc.buf, hl])
  | postTaken _ _ _ hl => exact hset (u := s.setChan ..) rfl rfl rfl (by simp [Desc.buf, hl])
  | take _ _ hl => exact hset (u := s.setChan ..) rfl rfl rfl (by simp [Desc.buf, hl])
  | collect _ _ hl => exact hset (u := s.setChan ..) rfl rfl rfl (by simp [Desc.buf, hl])
  | comeCollect hl => exact hset (u := s.setChan ..) rfl rfl rfl (by simp [Desc.buf, hl])
  | comeReturn hl => exact hset (u := s.setChan ..) rfl rfl rfl (by simp [Desc.buf, hl])
  | refill hl => exact hset rfl rfl rfl (by simp [Desc.buf, hl])

theorem Run.demandLaw {s t : State} (h : Run s t) (hs : s.demandLaw) : t.demandLaw := by
  refine h.keeps (P := State.demandLaw) (fun _ _ _ => Move.demandLaw) (fun _ _ _ => Shift.demandLaw) (fun u v hb hu => ?_) hs
  cases hb <;> exact hu

/-- The service of a head moves its demand to its charge (R28). -/
theorem State.demandLaw_satisfy {s : State} {e : AllocWait} {rest : List AllocWait} (hs : s.demandLaw)
    (he : s.allocWaits = e :: rest) (i : DescIx) :
    ({ s with allocWaits := rest }.satisfy e.port e.tag e.count i).demandLaw := by
  have htell := State.complete_tells (s := State.allocTo { s with allocWaits := rest } e.port e.count i) (p := e.port)
    e.tag .done { blockCount := e.count, v0 := State.handle { s with allocWaits := rest } i }
  refine Move.demandLaw (k := none) (.tells htell) fun p => ?_
  obtain ⟨x, hx⟩ := State.allocTo_frame { s with allocWaits := rest } e.port e.count i
  have hquota : (State.allocTo { s with allocWaits := rest } e.port e.count i).quotas = s.quotas := by rw [hx]; rfl
  have h1 := hs p
  have h2 := State.charged_allocTo (s := { s with allocWaits := rest }) (i := i) e.port e.count p
  have h3 := State.waitingDemand_cons he p
  have h4 : State.charged { s with allocWaits := rest } p = s.charged p := rfl
  rw [hquota, State.waitingDemand, State.allocTo_allocWaits]
  change _ + State.waitingDemand { s with allocWaits := rest } p ≤ _
  omega

/-! ### GRANT and every other command -/

theorem State.quotaLaw_grant {s : State} {p q : Port} {k : Nat} (hqp : q ≠ p) (hk : k ≤ s.quotas.get p) (hs : s.quotaLaw) :
    State.quotaLaw { s with quotas := s.quotasMoved p q k } := by
  unfold State.quotaLaw at hs ⊢
  unfold State.quotasMoved
  cases p <;> cases q <;> simp [PerPort.set, PerPort.get] at hqp hk ⊢ <;> omega

theorem State.demandLaw_grant {s : State} {p q : Port} {k : Nat} (hqp : q ≠ p)
    (hk : k + (s.charged p + s.waitingDemand p) ≤ s.quotas.get p) (hs : s.demandLaw) :
    State.demandLaw { s with quotas := s.quotasMoved p q k } := by
  intro x
  have hx := hs x
  change s.charged x + s.waitingDemand x ≤ (s.quotasMoved p q k).get x
  by_cases hxp : x = p
  · subst hxp
    rw [s.quotasMoved_giver k hqp]
    omega
  · by_cases hxq : x = q
    · subst hxq
      rw [State.quotasMoved_receiver]
      omega
    · rw [s.quotasMoved_other k hxp hxq]
      exact hx

theorem State.quotaLaw_of_quotas {s t : State} (h : t.quotas = s.quotas) (hs : s.quotaLaw) : t.quotaLaw := by
  rwa [State.quotaLaw, h]

theorem State.keepsPorts.quotas {s t : State} (h : s.keepsPorts t) : t.quotas = s.quotas :=
  (State.fixed_eq_iff.1 h.fixed).2.2.2.1

theorem State.deviceReset_demandLaw (s : State) : s.deviceReset.demandLaw := fun p => by
  have hc : s.deviceReset.charged p = 0 := by
    rw [State.charged_eq]
    simp [s.deviceReset_desc, Desc.charge, Desc.buf]
  rw [hc]
  exact Nat.zero_le _

/-- Settles O6: every effect of a command but a GRANT and device reset leaves the quotas alone, and each ALLOCATE was
admitted by its port's quota. -/
theorem quotaLawsKept : Obligations.QuotaLawsKept := by
  intro c s t hexec
  have hsame (hq : t.quotas = s.quotas) (hd : s.demandLaw → t.demandLaw) :
      (s.quotaLaw → t.quotaLaw) ∧ ((∀ p : Port, c ≠ .grant p) → c ≠ .deviceReset → t.quotas = s.quotas) ∧
        (s.demandLaw → t.demandLaw) :=
    ⟨State.quotaLaw_of_quotas hq, fun _ _ => hq, hd⟩
  cases effect_of_exec hexec with
  | run h => exact hsame h.keepsPorts.quotas h.demandLaw
  | read _ h ht =>
    obtain ⟨w, l, rfl⟩ := ht
    exact hsame h.keepsPorts.quotas h.demandLaw
  | @grant _ _ p q k hqp hk ht =>
    refine ⟨fun hs => State.quotaLaw_of_quotas ht.quotas (State.quotaLaw_grant hqp (by omega) hs),
      fun hc => absurd rfl (hc p), fun hs => ?_⟩
    exact Move.demandLaw (k := none) (.tells ht) (State.demandLaw_grant hqp hk hs)
  | reexamine =>
    refine hsame s.reexamine_keepsPorts.quotas fun hs => ?_
    exact State.reexamine_keeps (P := State.demandLaw) (fun _ _ => hs) (fun u e rest i hu he _ => State.demandLaw_satisfy hu he i) hs
  | tick h =>
    refine hsame (by rw [State.tickOnce_eq h]) fun hs p => ?_
    have hc : s.tickOnce.charged p ≤ s.charged p := State.charged_le fun i => by
      rw [State.tickOnce_desc h]
      exact (Desc.passes_count _).charge_le p
    have hw : s.tickOnce.waitingDemand p = s.waitingDemand p := by
      rw [State.tickOnce_eq h]
      simp [State.waitingDemand, Function.comp_def]
    have hq : s.tickOnce.quotas = s.quotas := by rw [State.tickOnce_eq h]
    rw [hw, hq]
    exact (Nat.add_le_add_right hc _).trans (hs p)
  | @walk _ p i h =>
    have hrun := run_walkAt s p i
    have hw := State.walkStep_eq h
    exact hsame (by rw [hw]; exact hrun.keepsPorts.quotas) fun hs => by rw [hw]; exact hrun.demandLaw hs
  | @resetAssert _ _ p ho h =>
    have hdrop : Move none s (s.dropHoldings p) := .depart ho
    exact hsame (h.keepsPorts.quotas.trans hdrop.quotas) fun hs => Run.demandLaw (.calm h) (hdrop.demandLaw hs)
  | deviceReset => exact ⟨fun _ => rfl, fun _ hc => absurd rfl hc, fun _ => s.deviceReset_demandLaw⟩
  | _ => exact hsame rfl id

end Sys2Proof.Machine

/-!
PROOFS. The place of each block. Blocks go from a list to a buffer and back as a whole: a freed buffer hands its blocks over,
an allocation takes the first ones of the free list, and a block test moves the head of the retired list (R18, R21, R22, R125).
-/

namespace Sys2Proof.Machine

/-! ### Counting the places of a block -/

theorem count_flatMap_finRange (f : DescIx → List BlockIx) (b : BlockIx) :
    ((List.finRange 128).flatMap f).count b = ∑ i, (f i).count b := by
  rw [List.count_flatMap, Fin.sum_univ_def]
  rfl

theorem State.lentBlocks_eq (s : State) : s.lentBlocks = (List.finRange 128).flatMap fun i => (s.desc i).blockList := by
  rw [State.lentBlocks, s.descs_toList, List.flatMap_map]

theorem State.mem_lentBlocks {s : State} {b : BlockIx} : b ∈ s.lentBlocks ↔ ∃ i, b ∈ (s.desc i).blockList := by
  simp [State.lentBlocks_eq]

/-- The number of places block `b` stands in. -/
def State.places (s : State) (b : BlockIx) : Nat :=
  s.freeList.count b + s.retired.count b + ∑ i, ((s.desc i).blockList).count b

theorem State.blockLaw_iff {s : State} : s.blockLaw ↔ ∀ b, s.places b = 1 := by
  simp only [State.blockLaw, State.places, List.count_append, State.lentBlocks_eq, count_flatMap_finRange]

section
variable {s : State} {b : BlockIx} {i : DescIx}

theorem State.count_blockList_le (s : State) (i : DescIx) (b : BlockIx) :
    ((s.desc i).blockList).count b ≤ ∑ i, ((s.desc i).blockList).count b :=
  Finset.single_le_sum (f := fun i => ((s.desc i).blockList).count b) (fun _ _ => Nat.zero_le _) (Finset.mem_univ i)

/-- A block on the free list stands nowhere else. -/
theorem State.blockLaw.of_free (h : s.blockLaw) (hb : b ∈ s.freeList) :
    b ∉ s.retired ∧ (∀ i, b ∉ (s.desc i).blockList) ∧ s.freeList.count b = 1 := by
  have hp := State.blockLaw_iff.1 h b
  have hf := List.count_pos_iff.2 hb
  unfold State.places at hp
  refine ⟨fun hr => ?_, fun i hi => ?_, by omega⟩
  · have := List.count_pos_iff.2 hr
    omega
  · have := List.count_pos_iff.2 hi
    have := s.count_blockList_le i b
    omega

/-- A block on the retired list stands nowhere else. -/
theorem State.blockLaw.of_retired (h : s.blockLaw) (hb : b ∈ s.retired) :
    b ∉ s.freeList ∧ (∀ i, b ∉ (s.desc i).blockList) ∧ s.retired.count b = 1 := by
  have hp := State.blockLaw_iff.1 h b
  have hr := List.count_pos_iff.2 hb
  unfold State.places at hp
  refine ⟨fun hf => ?_, fun i hi => ?_, by omega⟩
  · have := List.count_pos_iff.2 hf
    omega
  · have := List.count_pos_iff.2 hi
    have := s.count_blockList_le i b
    omega

/-- A block of a buffer stands on neither list. -/
theorem State.blockLaw.of_lent (h : s.blockLaw) (hb : b ∈ (s.desc i).blockList) : b ∉ s.freeList ∧ b ∉ s.retired :=
  ⟨fun hf => (h.of_free hf).2.1 i hb, fun hr => (h.of_retired hr).2.1 i hb⟩

/-- The blocks of one buffer differ. -/
theorem State.blockLaw.nodup (h : s.blockLaw) (i : DescIx) : (s.desc i).blockList.Nodup := by
  refine List.nodup_iff_count_le_one.2 fun b => ?_
  have hp := State.blockLaw_iff.1 h b
  have := s.count_blockList_le i b
  unfold State.places at hp
  omega

end

/-! ### The laws together -/

/-- The laws of the blocks: their places, their states and marks, and the running RETEST (R17, R18, R122). -/
structure State.blocksLaw (s : State) : Prop where
  place : s.blockLaw
  mark : s.markLaw
  retest : s.retestLaw

/-- Whatever leaves the lists, the block records and the block lists alone, and the RETEST record but for its requester. -/
theorem State.blocksLaw_of_same {s t : State} (hs : s.blocksLaw) (hf : t.freeList = s.freeList) (hr : t.retired = s.retired)
    (hb : t.blocks = s.blocks) (hd : ∀ i, (t.desc i).blockList = (s.desc i).blockList)
    (hx : ∀ y, t.retest = some y → ∃ x, s.retest = some x ∧ y = { x with requester := y.requester }) : t.blocksLaw := by
  obtain ⟨hplace, hmark, hretest⟩ := hs
  have hblock (b : BlockIx) : t.block b = s.block b := by simp only [State.block, hb]
  refine ⟨State.blockLaw_iff.2 fun b => ?_, fun b => ?_, fun y hy => ?_⟩
  · simp only [State.places, hf, hr, hd]
    exact State.blockLaw_iff.1 hplace b
  · obtain ⟨h1, h2, h3⟩ := hmark b
    rw [hf, hr, hblock]
    refine ⟨h1, h2, fun hb => h3 ?_⟩
    rw [State.mem_lentBlocks] at hb ⊢
    exact hb.imp fun i hi => hd i ▸ hi
  · obtain ⟨x, hx, he⟩ := hx y hy
    have := hretest x hx
    rw [he, hr]
    exact this

theorem State.blocksLaw_of_records {s t : State} (hs : s.blocksLaw) (hf : t.freeList = s.freeList)
    (hr : t.retired = s.retired) (hb : t.blocks = s.blocks) (hd : t.descs = s.descs) (hx : t.retest = s.retest) :
    t.blocksLaw :=
  State.blocksLaw_of_same hs hf hr hb (fun i => by rw [State.desc_of_descs hd]) fun y hy => ⟨y, hx ▸ hy, rfl⟩

/-- A descriptor goes on with its buffer. -/
theorem State.blocksLaw_setLife {s : State} (hs : s.blocksLaw) {i : DescIx} {l : Life}
    (hl : (Desc.mk (s.desc i).generation l).blockList = (s.desc i).blockList) : (s.setLife i l).blocksLaw := by
  refine State.blocksLaw_of_same hs rfl rfl rfl (fun j => ?_) fun y hy => ⟨y, hy, rfl⟩
  rw [State.desc_setLife]
  split_ifs with hij
  · exact hij ▸ hl
  · rfl

theorem State.blocksLaw_setChan {s : State} (hs : s.blocksLaw) (c : ChanIx) (x : Chan) : (s.setChan c x).blocksLaw :=
  State.blocksLaw_of_records hs rfl rfl rfl rfl rfl

/-! ### Freeing -/

theorem count_filter_add_count_filter_not (l : List BlockIx) (p : BlockIx → Bool) (b : BlockIx) :
    (l.filter p).count b + (l.filter fun x => !p x).count b = l.count b := by
  induction l with
  | nil => rfl
  | cons x rest ih =>
    cases hp : p x <;> simp [List.count_cons, hp] <;> omega

/-- The sum over the descriptors where one of them changes. -/
theorem sum_count_blockList_eq {s t : State} {i : DescIx} {b : BlockIx} {n : Nat} (hd : s.otherDescs t i)
    (hn : ((s.desc i).blockList).count b = ((t.desc i).blockList).count b + n) :
    ∑ j, ((s.desc j).blockList).count b = ∑ j, ((t.desc j).blockList).count b + n := by
  rw [← Finset.add_sum_erase _ _ (Finset.mem_univ i), ← Finset.add_sum_erase (a := i) (s := Finset.univ)
    (f := fun j => ((t.desc j).blockList).count b) (h := Finset.mem_univ i), hn,
    Finset.sum_congr rfl fun j hj => by rw [← hd j (Finset.ne_of_mem_erase hj)]]
  omega

theorem State.retestLaw_append {s t : State} {l : List BlockIx} (hs : s.retestLaw) (hx : t.retest = s.retest)
    (hr : t.retired = s.retired ++ l) : t.retestLaw := by
  intro x hxt
  obtain ⟨hhead, h1, hlen, hd⟩ := hs x (hx ▸ hxt)
  refine ⟨?_, h1, ?_, hd⟩
  · rw [hr]
    cases hl : s.retired with
    | nil => simp [hl] at hhead
    | cons y ys => simpa [hl] using hhead
  · rw [hr, List.length_append]
    omega

theorem State.freeDesc_retest (s : State) (i : DescIx) : (s.freeDesc i).retest = s.retest := by
  obtain ⟨d, x, f, r, n, h⟩ := s.freeDesc_frame i
  rw [h]

theorem State.blocksLaw_freeDesc {s : State} (hs : s.blocksLaw) (i : DescIx) : (s.freeDesc i).blocksLaw := by
  by_cases hfree : (s.desc i).state = .free
  · have hb : (s.desc i).buf = none := (Desc.buf_eq_none_iff _).2 ((Desc.state_eq_free_iff _).1 hfree)
    simpa only [State.freeDesc, hb] using hs
  obtain ⟨hplace, hmark, hretest⟩ := hs
  obtain ⟨hd, hother, hf, hr, hblock, _⟩ := s.becameFree_freeDesc i hfree (hplace.nodup i)
  have hnil : ((s.freeDesc i).desc i).blockList = [] := by rw [hd]; rfl
  refine ⟨State.blockLaw_iff.2 fun b => ?_, fun b => ?_, State.retestLaw_append hretest (s.freeDesc_retest i) hr⟩
  · have hsum := sum_count_blockList_eq (b := b) (n := ((s.desc i).blockList).count b) hother (by simp [hnil])
    have hsplit := count_filter_add_count_filter_not (s.desc i).blockList (fun b => (s.block b).suspect) b
    have hp := State.blockLaw_iff.1 hplace b
    simp only [State.places, hf, hr, List.count_append] at hp ⊢
    omega
  · obtain ⟨h1, h2, h3⟩ := hmark b
    rw [hblock, hf, hr]
    by_cases hb : b ∈ (s.desc i).blockList
    · obtain ⟨hnf, hnr⟩ := hplace.of_lent hb
      rw [if_pos hb]
      refine ⟨fun hm => ?_, fun hm => ?_, fun hm => ?_⟩
      · have hsus : (s.block b).suspect = false := by simpa [hnf, hb] using hm
        simp [hsus]
      · have hsus : (s.block b).suspect = true := by simpa [hnr, hb] using hm
        simp [hsus]
      · obtain ⟨j, hj⟩ := State.mem_lentBlocks.1 hm
        by_cases hij : j = i
        · rw [hij, hnil] at hj
          exact nomatch hj
        · rw [hother j hij] at hj
          have hsum := State.blockLaw_iff.1 hplace b
          have h1 := List.count_pos_iff.2 hj
          have h2 := List.count_pos_iff.2 hb
          have hle : ((s.desc j).blockList).count b + ((s.desc i).blockList).count b ≤
              ∑ k, ((s.desc k).blockList).count b := by
            rw [← Finset.sum_pair (f := fun k => ((s.desc k).blockList).count b) hij]
            exact Finset.sum_le_sum_of_subset (Finset.subset_univ _)
          unfold State.places at hsum
          omega
    · rw [if_neg hb]
      refine ⟨fun hm => h1 ?_, fun hm => h2 ?_, fun hm => h3 ?_⟩
      · simpa [hb] using hm
      · simpa [hb] using hm
      · obtain ⟨j, hj⟩ := State.mem_lentBlocks.1 hm
        by_cases hij : j = i
        · rw [hij, hnil] at hj
          exact nomatch hj
        · rw [hother j hij] at hj
          exact State.mem_lentBlocks.2 ⟨j, hj⟩

/-! ### Allocation -/

theorem State.allocTo_retired (s : State) (p : Port) (n : Nat) (i : DescIx) : (s.allocTo p n i).retired = s.retired := by
  obtain ⟨x, h⟩ := s.allocTo_frame p n i
  rw [h]
  rfl

theorem State.allocTo_retest (s : State) (p : Port) (n : Nat) (i : DescIx) : (s.allocTo p n i).retest = s.retest := by
  obtain ⟨x, h⟩ := s.allocTo_frame p n i
  rw [h]
  rfl

theorem State.blocksLaw_allocTo {s : State} (hs : s.blocksLaw) (p : Port) (n : Nat) {i : DescIx}
    (hi : (s.desc i).state = .free) : (s.allocTo p n i).blocksLaw := by
  obtain ⟨hplace, hmark, hretest⟩ := hs
  obtain ⟨hd, hother, hf, hblock⟩ := s.lentTo_allocTo p n i
  have hr := s.allocTo_retired p n i
  have hnil : (s.desc i).blockList = [] := by
    rw [Desc.state_eq_free_iff] at hi
    simp [Desc.blockList, Desc.buf, hi]
  have hnew : ((s.allocTo p n i).desc i).blockList = s.freeList.take n := by rw [hd]; rfl
  have hsplit (b : BlockIx) : (s.freeList.take n).count b + (s.freeList.drop n).count b = s.freeList.count b := by
    rw [← List.count_append, List.take_append_drop]
  refine ⟨State.blockLaw_iff.2 fun b => ?_, fun b => ?_, fun x hx => ?_⟩
  · have hsum := sum_count_blockList_eq (s := s.allocTo p n i) (t := s) (b := b) (n := (s.freeList.take n).count b)
      (i := i) (fun j hj => (hother j hj).symm) (by simp [hnil, hnew])
    have hp := State.blockLaw_iff.1 hplace b
    have := hsplit b
    simp only [State.places, hf, hr] at hp ⊢
    omega
  · obtain ⟨h1, h2, h3⟩ := hmark b
    rw [hblock, hf, hr]
    by_cases hb : b ∈ s.freeList.take n
    · obtain ⟨hnr, _, hone⟩ := hplace.of_free (List.mem_of_mem_take hb)
      rw [if_pos hb]
      refine ⟨fun hm => ?_, fun hm => absurd hm hnr, fun _ => rfl⟩
      have := hsplit b
      have := List.count_pos_iff.2 hb
      have := List.count_pos_iff.2 hm
      omega
    · rw [if_neg hb]
      refine ⟨fun hm => h1 (List.mem_of_mem_drop hm), h2, fun hm => h3 ?_⟩
      obtain ⟨j, hj⟩ := State.mem_lentBlocks.1 hm
      by_cases hij : j = i
      · rw [hij, hnew] at hj
        exact absurd hj hb
      · rw [hother j hij] at hj
        exact State.mem_lentBlocks.2 ⟨j, hj⟩
  · rw [s.allocTo_retest] at hx
    rw [hr]
    exact hretest x hx

/-! ### Marks and the block test -/

theorem Desc.blockList_withDamage (d : Desc) : d.withDamage.blockList = d.blockList :=
  d.sameLife_withDamage.2.1.symm

theorem State.blocksLaw_damage {s : State} (hs : s.blocksLaw) {i : DescIx} {b : BlockIx} (hb : b ∈ (s.desc i).blockList) :
    ((s.setBlock b { s.block b with suspect := true }).setDesc i (s.desc i).withDamage).blocksLaw := by
  obtain ⟨hplace, hmark, hretest⟩ := hs
  have hd (j : DescIx) : (((s.setBlock b { s.block b with suspect := true }).setDesc i (s.desc i).withDamage).desc j).blockList =
      (s.desc j).blockList := by
    rw [State.desc_setDesc]
    split_ifs with hij
    · exact hij ▸ Desc.blockList_withDamage _
    · rfl
  obtain ⟨hnf, hnr⟩ := hplace.of_lent hb
  refine ⟨State.blockLaw_iff.2 fun c => ?_, fun c => ?_, hretest⟩
  · simp only [State.places, hd]
    exact State.blockLaw_iff.1 hplace c
  · obtain ⟨h1, h2, h3⟩ := hmark c
    rw [State.block_setDesc, State.block_setBlock]
    split_ifs with hbc
    · subst hbc
      exact ⟨fun hm => absurd hm hnf, fun hm => absurd hm hnr, fun _ => h3 (State.mem_lentBlocks.2 ⟨i, hb⟩)⟩
    · refine ⟨h1, h2, fun hm => h3 ?_⟩
      rw [State.mem_lentBlocks] at hm ⊢
      exact hm.imp fun j hj => hd j ▸ hj

/-- The retired list while a RETEST runs: the block under test and the rest. -/
theorem State.retestLaw.retired {s : State} (h : s.retestLaw) {x : Retest} (hx : s.retest = some x) :
    ∃ rest, s.retired = x.block :: rest ∧ 1 ≤ x.remaining ∧ x.remaining ≤ rest.length + 1 := by
  obtain ⟨hhead, h1, hlen, _⟩ := h x hx
  cases hr : s.retired with
  | nil => simp [hr] at hhead
  | cons b rest =>
    simp only [hr, List.head?_cons, Option.some.injEq, List.length_cons] at hhead hlen
    exact ⟨rest, by rw [hhead], h1, hlen⟩

/-- The lists after a block test (R22): the block is at the tail of the free list after a pass and of the retired list after
a failure. -/
theorem State.takeResult_lists {s : State} {b : BlockIx} {rest : List BlockIx} (hr : s.retired = b :: rest) (pass : Bool) :
    (s.takeResult b pass).freeList = s.freeList ++ (if pass then [b] else []) ∧
      (s.takeResult b pass).retired = rest ++ (if pass then [] else [b]) := by
  cases pass <;> simp [State.takeResult, State.callReexam, hr]

theorem State.takeResult_block (s : State) (b c : BlockIx) (pass : Bool) :
    (s.takeResult b pass).block c = if pass = true ∧ b = c then ⟨.free, false⟩ else s.block c := by
  cases pass
  · simp [State.takeResult, State.block]
  · simp only [true_and]
    exact State.block_setBlock s b c ⟨.free, false⟩

theorem State.blocksLaw_endTest {s : State} (hs : s.blocksLaw) {x : Retest} {y : Option Retest} (pass : Bool)
    (hx : s.retest = some x)
    (hy : y = none ∨ ∃ n b m, x.remaining = n + 2 ∧ (s.takeResult x.block pass).retired.head? = some b ∧
      y = some { x with remaining := n + 1, passed := m, block := b, disturbed := [] }) :
    State.blocksLaw { s.takeResult x.block pass with retest := y } := by
  obtain ⟨hplace, hmark, hretest⟩ := hs
  obtain ⟨rest, hr, _, hlen⟩ := hretest.retired hx
  obtain ⟨hf', hr'⟩ := State.takeResult_lists hr pass
  have hdesc (i : DescIx) : (s.takeResult x.block pass).desc i = s.desc i :=
    State.desc_of_descs (s.takeResult_descs x.block pass) i
  obtain ⟨hnf, hnl, hone⟩ := hplace.of_retired (b := x.block) (by simp [hr])
  have hnrest : x.block ∉ rest := fun hm => by
    have := List.count_pos_iff.2 hm
    simp only [hr, List.count_cons_self] at hone
    omega
  refine ⟨State.blockLaw_iff.2 fun b => ?_, fun b => ?_, fun z hz => ?_⟩
  · have hp := State.blockLaw_iff.1 hplace b
    simp only [State.places, hr, List.count_cons] at hp
    change (s.takeResult x.block pass).freeList.count b + (s.takeResult x.block pass).retired.count b +
      ∑ i, (((s.takeResult x.block pass).desc i).blockList).count b = 1
    simp only [hf', hr', hdesc, List.count_append]
    cases pass <;> simp [List.count_cons] at hp ⊢ <;> omega
  · obtain ⟨h1, h2, h3⟩ := hmark b
    have hlent : b ∈ (s.takeResult x.block pass).lentBlocks ↔ b ∈ s.lentBlocks := by
      simp only [State.mem_lentBlocks, hdesc]
    change (b ∈ (s.takeResult x.block pass).freeList → (s.takeResult x.block pass).block b = ⟨.free, false⟩) ∧
      (b ∈ (s.takeResult x.block pass).retired → (s.takeResult x.block pass).block b = ⟨.retired, false⟩) ∧
        (b ∈ (s.takeResult x.block pass).lentBlocks → ((s.takeResult x.block pass).block b).state = .inUse)
    rw [State.takeResult_block, hf', hr', hlent]
    by_cases hb : x.block = b
    · subst hb
      have hnlent : x.block ∉ s.lentBlocks := fun hm => by
        obtain ⟨i, hi⟩ := State.mem_lentBlocks.1 hm
        exact hnl i hi
      refine ⟨fun hm => ?_, fun hm => ?_, fun hm => absurd hm hnlent⟩
      · cases pass
        · exact absurd (by simpa using hm) hnf
        · simp
      · cases pass
        · simpa using h2 (by simp [hr])
        · exact absurd (by simpa using hm) hnrest
    · have hb' : b ≠ x.block := fun e => hb e.symm
      rw [if_neg (show ¬(pass = true ∧ x.block = b) from fun h => hb h.2)]
      refine ⟨fun hm => h1 ?_, fun hm => h2 ?_, h3⟩
      · cases pass <;> simpa [hb'] using hm
      · rw [hr]
        refine List.mem_cons_of_mem _ ?_
        cases pass <;> simpa [hb'] using hm
  · obtain rfl | ⟨n, b, m, hrem, hhead, rfl⟩ := hy
    · exact nomatch hz
    · obtain rfl := Option.some.inj hz
      refine ⟨hhead, Nat.le_add_left 1 n, ?_, nofun⟩
      change n + 1 ≤ (s.takeResult x.block pass).retired.length
      rw [hr', List.length_append]
      omega

/-- The moment noted for an upset lies within the test. -/
theorem Retest.disturb_moment {x : Retest} (hx : ∀ d ∈ x.disturbed, d.moment ≤ testOps) (v : Word) :
    x.lastMoment + v.toNat % (testOps + 1 - x.lastMoment) ≤ testOps := by
  have hlast : x.lastMoment ≤ testOps := by
    unfold Retest.lastMoment
    cases h : x.disturbed.getLast? with
    | none => exact Nat.zero_le _
    | some d => exact hx d (List.mem_of_getLast? h)
  have := Nat.mod_lt v.toNat (show 0 < testOps + 1 - x.lastMoment by omega)
  omega

theorem State.retestLaw_noteUpset {s : State} (hs : s.retestLaw) (w : MemIx) (flips cells : StoredBits) :
    (s.noteUpset w flips cells).retestLaw := by
  unfold State.noteUpset
  split
  next => exact hs
  next x hx =>
    split_ifs with hw
    · obtain ⟨hhead, h1, hlen, hd⟩ := hs x hx
      intro y hy
      obtain rfl := Option.some.inj hy
      refine ⟨hhead, h1, hlen, fun d hm => ?_⟩
      obtain hm | hm := List.mem_append.1 hm
      · exact hd d hm
      · obtain rfl := List.mem_singleton.1 hm
        exact ⟨hw, Retest.disturb_moment (fun d hd' => (hd d hd').2) _⟩
    · exact hs

/-! ### Every command -/

theorem Move.blocksLaw {k : Option ChanIx} {s t : State} (h : Move k s t) (hs : s.blocksLaw) : t.blocksLaw := by
  cases h with
  | tells h => exact State.blocksLaw_of_records hs h.freeList h.retired h.blocks h.descs h.retest
  | free => exact State.blocksLaw_freeDesc hs _
  | freeForward => exact State.blocksLaw_freeDesc (State.blocksLaw_setChan hs ..) _
  | freeReturn => exact State.blocksLaw_freeDesc (State.blocksLaw_setChan hs ..) _
  | bounceCollect _ _ hl =>
    exact State.blocksLaw_setLife (State.blocksLaw_setChan hs ..) (by simp [Desc.blockList, Desc.buf, hl])
  | bounceReturn _ _ hl =>
    exact State.blocksLaw_setLife (State.blocksLaw_setChan hs ..) (by simp [Desc.blockList, Desc.buf, hl])
  | dropAlloc p tag =>
    unfold State.dropAllocWait
    dsimp only
    split <;> exact State.blocksLaw_of_records hs rfl rfl rfl rfl rfl
  | damage hb => exact State.blocksLaw_damage hs hb
  | renew hl => exact State.blocksLaw_setLife hs (by simp [Desc.blockList, Desc.buf, hl])
  | startRetest q hx hr =>
    obtain ⟨hplace, hmark, _⟩ := hs
    refine ⟨hplace, hmark, fun y hy => ?_⟩
    obtain rfl := Option.some.inj hy
    simp [hr]
  | endTest pass hx hy => exact State.blocksLaw_endTest hs pass hx hy
  | upset w flips cells level =>
    obtain ⟨hplace, hmark, hretest⟩ := hs
    have h := State.retestLaw_noteUpset hretest w flips cells
    rw [noteUpset_frame s w flips cells] at h ⊢
    exact ⟨hplace, hmark, h⟩
  | @depart p ho =>
    have hx (y : Retest) (hy : (s.dropHoldings p).retest = some y) :
        ∃ x, s.retest = some x ∧ y = { x with requester := y.requester } := by
      have hmap : (s.dropHoldings p).retest = s.retest.map fun t =>
          if t.requester.any (fun q => decide (q.1 = p)) then { t with requester := none } else t := by
        unfold State.dropHoldings
        dsimp only
        split <;> rfl
      rw [hmap] at hy
      obtain ⟨x, hx, rfl⟩ := Option.map_eq_some_iff.1 hy
      refine ⟨x, hx, ?_⟩
      split_ifs <;> rfl
    refine State.blocksLaw_of_same hs ?_ ?_ ?_ (fun i => by rw [State.desc_of_descs (s.dropHoldings_descs p)]) hx
    all_goals
      unfold State.dropHoldings
      dsimp only
      split <;> rfl
  | _ => exact State.blocksLaw_of_records hs rfl rfl rfl rfl rfl

theorem Shift.blocksLaw {k : Option ChanIx} {s t : State} (h : Shift k s t) (hs : s.blocksLaw) : t.blocksLaw := by
  cases h with
  | allocate ho hi => exact State.blocksLaw_allocTo hs _ _ hi
  | post _ _ _ hl => exact State.blocksLaw_setLife (State.blocksLaw_setChan hs ..) (by simp [Desc.blockList, Desc.buf, hl])
  | postTaken _ _ _ hl => exact State.blocksLaw_setLife (State.blocksLaw_setChan hs ..) (by simp [Desc.blockList, Desc.buf, hl])
  | take _ _ hl => exact State.blocksLaw_setLife (State.blocksLaw_setChan hs ..) (by simp [Desc.blockList, Desc.buf, hl])
  | collect _ _ hl => exact State.blocksLaw_setLife (State.blocksLaw_setChan hs ..) (by simp [Desc.blockList, Desc.buf, hl])
  | comeCollect hl => exact State.blocksLaw_setLife (State.blocksLaw_setChan hs ..) (by simp [Desc.blockList, Desc.buf, hl])
  | comeReturn hl => exact State.blocksLaw_setLife (State.blocksLaw_setChan hs ..) (by simp [Desc.blockList, Desc.buf, hl])
  | refill hl => exact State.blocksLaw_setLife hs (by simp [Desc.blockList, Desc.buf, hl])

theorem Run.blocksLaw {s t : State} (h : Run s t) (hs : s.blocksLaw) : t.blocksLaw := by
  refine h.keeps (P := State.blocksLaw) (fun _ _ _ => Move.blocksLaw) (fun _ _ _ => Shift.blocksLaw) (fun u v hb hu => ?_) hs
  cases hb <;> exact State.blocksLaw_setChan hu ..

theorem State.reexamine_blocksLaw {s : State} (hs : s.blocksLaw) : s.reexamine.blocksLaw := by
  refine State.reexamine_keeps (P := State.blocksLaw) (fun _ _ => State.blocksLaw_of_records hs rfl rfl rfl rfl rfl)
    (fun u e rest i hu he hg => ?_) hs
  have hfree : (u.desc i).state = .free := by
    unfold State.canGive at hg
    split_ifs at hg
    exact (u.lowestFree_spec i hg).1
  have hrest : State.blocksLaw { u with allocWaits := rest } := State.blocksLaw_of_records hu rfl rfl rfl rfl rfl
  exact Move.blocksLaw (k := none) (.tells (State.complete_tells ..)) (State.blocksLaw_allocTo hrest _ _ hfree)

theorem State.deviceReset_blocksLaw (s : State) : s.deviceReset.blocksLaw := by
  have hnil (i : DescIx) : (s.deviceReset.desc i).blockList = [] := by
    rw [s.deviceReset_desc]
    rfl
  have hretired : s.deviceReset.retired = [] := rfl
  have hretest : s.deviceReset.retest = none := rfl
  have hfree : s.deviceReset.freeList = List.finRange 512 := by simp only [State.deviceReset, State.reset]
  refine ⟨State.blockLaw_iff.2 fun b => ?_, fun b => ⟨fun _ => ?_, fun hb => ?_, fun hb => ?_⟩, fun x hx => ?_⟩
  · simp only [State.places, hnil, hretired, hfree, List.count_nil, Finset.sum_const_zero, Nat.add_zero]
    refine List.count_eq_one_of_mem ?_ ?_
    · exact List.nodup_finRange 512
    · exact List.mem_finRange b
  · simp [State.deviceReset, State.reset, State.block]
  · rw [hretired] at hb
    exact nomatch hb
  · obtain ⟨i, hi⟩ := State.mem_lentBlocks.1 hb
    rw [hnil] at hi
    exact nomatch hi
  · rw [hretest] at hx
    exact nomatch hx

/-- Settles O7: every effect of a command keeps each block in one place, with its mark, and the running RETEST on the head
of the retired list. -/
theorem blockLawKept : Obligations.BlockLawKept := by
  intro c s t hplace hmark hretest hexec
  have hs : s.blocksLaw := ⟨hplace, hmark, hretest⟩
  suffices h : t.blocksLaw from ⟨h.place, h.mark, h.retest⟩
  cases effect_of_exec hexec with
  | run h => exact h.blocksLaw hs
  | read _ h ht =>
    obtain ⟨w, l, rfl⟩ := ht
    exact State.blocksLaw_of_records (h.blocksLaw hs) rfl rfl rfl rfl rfl
  | grant _ _ ht => exact State.blocksLaw_of_records hs ht.freeList ht.retired ht.blocks ht.descs ht.retest
  | reexamine => exact State.reexamine_blocksLaw hs
  | tick h =>
    have hrest := State.tickOnce_eq h
    refine State.blocksLaw_of_same hs (by rw [hrest]) (by rw [hrest]) (by rw [hrest]) (fun i => ?_) fun y hy =>
      ⟨y, by rw [hrest] at hy; exact hy, rfl⟩
    rw [State.tickOnce_desc h, Desc.count]
    split
    next hl => simp [Desc.blockList, Desc.buf, hl]
    all_goals rfl
  | walk h =>
    rw [State.walkStep_eq h]
    exact State.blocksLaw_of_records ((run_walkAt s _ _).blocksLaw hs) rfl rfl rfl rfl rfl
  | @resetAssert _ _ p ho h =>
    have hdrop : (s.dropHoldings p).blocksLaw := Move.blocksLaw (k := none) (.depart ho) hs
    exact Run.blocksLaw (.calm h) (State.blocksLaw_of_records hdrop rfl rfl rfl rfl rfl)
  | deviceReset => exact s.deviceReset_blocksLaw
  | _ => exact State.blocksLaw_of_records hs rfl rfl rfl rfl rfl

end Sys2Proof.Machine

/-!
PROOFS. The step, the laws after reset, the writers of a word, the tick, the re-examination, the wait timers and FREE.
-/

namespace Sys2Proof.Machine

/-! ### The step and the laws after reset -/

/-- Settles O1, by the two cases of the queue. -/
theorem stepRunsFrontCommand : Obligations.StepRunsFrontCommand :=
  ⟨fun s c rest h => by rw [step, h], fun s h => by rw [step, h]⟩

/-- Device reset of the machine right after reset leaves it as it is. -/
theorem State.deviceReset_reset : State.reset.deviceReset = State.reset := by
  simp only [State.deviceReset, State.reset, PerPort.all, Hpi.reset]

theorem State.deviceReset_keepsPortLaws (s : State) : s.deviceReset.portLaw ∧ s.deviceReset.tagLaw :=
  State.portLaws_iff.2 fun q => by
    rw [s.hpi_deviceReset]
    exact Hpi.law_of_bare (Hpi.bare_reset _ _ _ _)

theorem State.deviceReset_inTransit (s : State) (c : ChanIx) : s.deviceReset.inTransit c = 0 :=
  s.deviceReset_trafficLaw.inTransit_closed fun a ha => by
    rw [s.deviceReset_chan] at ha
    exact nomatch ha

theorem State.deviceReset_depthLaw (s : State) : s.deviceReset.depthLaw := fun c => by
  rw [s.deviceReset_chan]
  exact s.deviceReset_inTransit c

theorem State.deviceReset_resetLaw (s : State) : s.deviceReset.resetLaw := by
  refine ⟨fun _ => rfl, fun _ p => ?_, fun p _ => ?_⟩ <;> rw [s.hpi_deviceReset]
  · rfl
  · exact nofun

/-- Settles O4: the machine after reset is one that device reset leaves, and each law holds of those. -/
theorem lawsHoldAtReset : Obligations.LawsHoldAtReset := by
  have hports := State.reset.deviceReset_keepsPortLaws
  have hblocks := State.reset.deviceReset_blocksLaw
  have hheld := State.reset.deviceReset_holdingLaw
  have hchan := State.reset.deviceReset_chan
  have hdemand := State.reset.deviceReset_demandLaw
  have hdepth := State.reset.deviceReset_depthLaw
  have hwait := State.reset.deviceReset_waitLaw
  have hreset := State.reset.deviceReset_resetLaw
  rw [State.deviceReset_reset] at hports hblocks hheld hchan hdemand hdepth hwait hreset
  obtain ⟨hplace, hmark, hretest⟩ := hblocks
  refine ⟨hports.1, hports.2, rfl, hdemand, hplace, hmark, hretest, ?_, hheld.traffic.1, hdepth, ?_, hwait, ?_,
    hheld.waiters, hheld.walk, hheld.traffic.2, hreset, ?_, rfl, rfl, rfl⟩
  · intro c m hm
    rw [hchan] at hm
    exact nomatch hm
  · intro c a ha
    rw [hchan] at ha
    exact nomatch ha
  · intro c hc
    rw [hchan] at hc
    exact nomatch hc
  · intro _ e rest he
    have hnone : State.reset.allocWaits = [] := rfl
    rw [hnone] at he
    exact nomatch he

/-! ### One writer for each word -/

/-- What a granted access proves: the descriptor it reaches is held by its port. -/
theorem State.accessCheck_holder {s : State} {p : Port} {addr : BitVec 14} {dir : Direction} {i : DescIx}
    (h : s.accessCheck p addr dir = .ok i) : (s.desc i).holder = some p := by
  cases hslot : (s.hpi p).apertures[apertureSlot addr] with
  | none =>
    rw [State.accessCheck_unmapped hslot] at h
    exact nomatch h
  | some w =>
    rw [State.accessCheck_mapped hslot] at h
    split_ifs at h with hlive
    obtain rfl := Except.ok.inj h
    rw [Bool.not_eq_false, State.live, Bool.and_eq_true, beq_iff_eq, beq_iff_eq] at hlive
    exact hlive.2

/-- The block a word of a buffer lies in. -/
theorem Desc.wordAt_block (d : Desc) (o : Nat) : (d.wordAt o).val / 128 = (d.blockAt o).val := by
  simp only [Desc.wordAt]
  omega

/-- A block is in the block list of one descriptor alone. -/
theorem State.blockLaw.desc_eq {s : State} (h : s.blockLaw) {i j : DescIx} {b : BlockIx}
    (hi : b ∈ (s.desc i).blockList) (hj : b ∈ (s.desc j).blockList) : i = j := by
  by_contra hne
  have hp := State.blockLaw_iff.1 h b
  have hboth : ((s.desc i).blockList).count b + ((s.desc j).blockList).count b ≤
      ∑ k, ((s.desc k).blockList).count b :=
    Finset.add_le_sum (f := fun k => ((s.desc k).blockList).count b) (fun _ _ => Nat.zero_le _) (Finset.mem_univ i)
      (Finset.mem_univ j) hne
  have := List.count_pos_iff.2 hi
  have := List.count_pos_iff.2 hj
  unfold State.places at hp
  omega

/-- Settles O15: two ports that can write a word each hold the descriptor whose block list has the word's block, and that
is one descriptor. -/
theorem oneWriterPerWord : Obligations.OneWriterPerWord := by
  rintro s hs p q w ⟨addr, i, hi, hw⟩ ⟨addr', j, hj, hw'⟩
  have hblock : (s.desc i).blockAt (apertureOffset addr) = (s.desc j).blockAt (apertureOffset addr') := by
    rw [Fin.ext_iff, ← Desc.wordAt_block, ← Desc.wordAt_block, hw, hw']
  have hmem := Desc.blockAt_mem (State.accessCheck_ok hi)
  rw [hblock] at hmem
  obtain rfl := hs.desc_eq hmem (Desc.blockAt_mem (State.accessCheck_ok hj))
  have hp := State.accessCheck_holder hi
  rw [State.accessCheck_holder hj] at hp
  exact (Option.some.inj hp).symm

/-! ### The tick -/

/-- A timer's count of one tick, as R87 gives it. -/
theorem Timer.count_running (n : Nat) : (Timer.running n).count = if 2 ≤ n then .running (n - 1) else .ranOut := by
  match n with
  | 0 => rfl
  | 1 => rfl
  | n + 2 => rfl

/-- Settles O37: each record with a timer counts it, by the forms of the record. -/
theorem tickCountsEveryTimer : Obligations.TickCountsEveryTimer := by
  intro s
  refine ⟨?_, fun h => congrArg Host.Outcome.next (if_pos h)⟩
  intro h later
  refine ⟨s.tickOnce, rfl, ?_⟩
  have hlater : later = Timer.count := funext fun k => by
    cases k with
    | running n => exact (Timer.count_running n).symm
    | ranOut => rfl
  rw [hlater]
  have hwaits (ws : List Wait) : ws.map (fun w => ⟨w.tag, w.timer.map Timer.count⟩) = ws.map Wait.count := rfl
  refine ⟨?_, ?_, fun i b tr p k n hl => ?_, fun i hi => ?_, fun k m tag x hk => ?_, fun k a hk => ?_, fun k hk => ?_, ?_⟩
  · rw [State.tickOnce_eq h]
  · rw [State.tickOnce_eq h]
  · rw [State.tickOnce_desc h, Desc.count, hl]
  · rw [State.tickOnce_desc h, Desc.count]
    split
    · exact absurd (by rw [Desc.state, ‹(s.desc i).life = _›]) hi
    all_goals rfl
  · rw [State.tickOnce_chan h, hk, Chan.count]
  · rw [State.tickOnce_chan h, hk, Chan.count, hwaits, hwaits]
  · rw [State.tickOnce_chan h, hk, Chan.count]
  · rw [State.tickOnce_eq h]

/-! ### Pool re-examination -/

theorem State.reexamine_none {s : State} (h : s.reexamsDue = 0) : s.reexamine = s := by rw [State.reexamine, h]

theorem State.reexamine_due {s : State} {n : Nat} (h : s.reexamsDue = n + 1) :
    s.reexamine = State.serveHeads s.allocWaits.length { s with reexamsDue := n } := by rw [State.reexamine, h]

/-- A re-examination that finds no entry, or a head that cannot be served, serves nothing. -/
theorem State.serveHeads_stops {s : State} (h : s.allocWaits = [] ∨ ∃ e rest, s.allocWaits = e :: rest ∧ s.canGive e.count = none)
    (n : Nat) : State.serveHeads n s = s := by
  cases n with
  | zero => rfl
  | succ n =>
    rw [State.serveHeads]
    rcases h with h | ⟨e, rest, h, hg⟩
    · rw [h]
    · rw [h]
      simp only [hg]

/-- A head that can be served is served first. -/
theorem State.serveHeads_serves {s : State} {e : AllocWait} {rest : List AllocWait} {i : DescIx}
    (h : s.allocWaits = e :: rest) (hg : s.canGive e.count = some i) (n : Nat) :
    State.serveHeads (n + 1) s =
      State.serveHeads n (State.satisfy { s with allocWaits := rest } e.port e.tag e.count i) := by
  rw [State.serveHeads, h]
  simp only [hg]

/-- An allocation does not look at the re-examinations called for. -/
theorem State.satisfy_reexamsDue (s : State) (p : Port) (tag : Tag) (n : Nat) (i : DescIx) (x : Nat) :
    State.satisfy { s with reexamsDue := x } p tag n i = { s.satisfy p tag n i with reexamsDue := x } := by
  have hblocks (bs : List BlockIx) (u : State) :
      bs.foldl (fun s b => State.setBlock s b ⟨.inUse, false⟩) { u with reexamsDue := x } =
        { bs.foldl (fun s b => State.setBlock s b ⟨.inUse, false⟩) u with reexamsDue := x } := by
    induction bs generalizing u with
    | nil => rfl
    | cons b bs ih => exact ih (u.setBlock b ⟨.inUse, false⟩)
  have hgive : State.allocTo { s with reexamsDue := x } p n i = { s.allocTo p n i with reexamsDue := x } := by
    simp only [State.allocTo]
    rw [hblocks _ { s with freeList := s.freeList.drop n }]
    rfl
  have hcomplete (u : State) (v : Vals) :
      State.complete { u with reexamsDue := x } p tag .done v = { u.complete p tag .done v with reexamsDue := x } := by
    cases hf : (u.hpi p).table.find? (fun e => e.req.tag == tag) with
    | none =>
      rw [u.complete_of_not_find p tag .done v hf]
      exact State.complete_of_not_find { u with reexamsDue := x } p tag .done v hf
    | some e =>
      rw [u.complete_of_find p tag .done v hf]
      exact State.complete_of_find { u with reexamsDue := x } p tag .done v hf
  rw [State.satisfy, hgive, hcomplete]
  rfl

/-- Settles O42: the head that can be served is served first, and the rest is the same re-examination. -/
theorem reexaminationServesTheHead : Obligations.ReexaminationServesTheHead := by
  intro s
  refine ⟨fun h => congrArg Host.Outcome.next (State.reexamine_none h), fun n hn h => ?_, fun n e rest i hn hw hfit hlow hreq => ?_⟩
  · refine congrArg Host.Outcome.next ((State.reexamine_due hn).trans (State.serveHeads_stops ?_ _))
    refine h.imp id fun ⟨e, rest, he, hg⟩ => ⟨e, rest, he, ?_⟩
    exact State.canGive_none { s with reexamsDue := n } e.count hg
  · have hgive : State.canGive { s with reexamsDue := n } e.count = some i :=
      State.canGive_eq { s with reexamsDue := n } e.count i hfit hlow
    obtain ⟨hlent, hhpi, hothers, hframe⟩ := State.satisfy_spec (s := { s with allocWaits := rest }) hreq e.count i
    generalize hm : State.satisfy { s with allocWaits := rest } e.port e.tag e.count i = m at hlent hhpi hothers hframe
    have hmwaits : m.allocWaits = rest := by rw [hframe]
    have hmdue : m.reexamsDue = n + 1 := by rw [hframe]; exact hn
    have hserve : s.reexamine = m.reexamine := by
      have hlen : s.allocWaits.length = rest.length + 1 := by rw [hw, List.length_cons]
      have hmlen : m.allocWaits.length = rest.length := congrArg List.length hmwaits
      rw [State.reexamine_due hn, State.reexamine_due hmdue, hmlen, hlen]
      have hlater := State.satisfy_reexamsDue { s with allocWaits := rest } e.port e.tag e.count i n
      rw [hm] at hlater
      exact (State.serveHeads_serves (s := { s with reexamsDue := n }) hw hgive rest.length).trans (congrArg _ hlater)
    refine ⟨m, m.reexamine, congrArg Host.Outcome.next hserve, rfl, hmwaits, hlent, hhpi, hothers, ?_⟩
    rw [hframe]

end Sys2Proof.Machine

/-!
PROOFS. The wait timers, FREE, device reset and the memory clear.
-/

namespace Sys2Proof.Machine

/-! ### The wait timers -/

theorem AllocWait.isOf_eq (p : Port) (tag : Tag) :
    AllocWait.isOf p tag = fun e => decide (e.port = p ∧ e.tag = tag) := funext fun e => by
  rw [AllocWait.isOf, Bool.decide_and]
  rfl

theorem Wait.expired_eq (tag : Tag) : Wait.expired tag = fun w => decide (w = ⟨tag, some .ranOut⟩) := funext fun w => by
  obtain ⟨g, k⟩ := w
  simp [Wait.expired, Wait.mk.injEq, Bool.decide_and, ← Bool.beq_eq_decide_eq]

/-- An entry that leaves the allocation wait list unserved, with the re-examination its being the head calls for
(R30, R31). -/
theorem State.dropAllocWait_eq (s : State) (p : Port) (tag : Tag) :
    s.dropAllocWait p tag = { s with
      allocWaits := s.allocWaits.eraseP (fun e => decide (e.port = p ∧ e.tag = tag))
      reexamsDue := s.reexamsDue +
        (match s.allocWaits with
          | [] => 0
          | x :: _ => if x.port = p ∧ x.tag = tag then 1 else 0) } := by
  rw [State.dropAllocWait, AllocWait.isOf_eq]
  cases hw : s.allocWaits with
  | nil => rfl
  | cons x rest =>
    by_cases h : x.port = p ∧ x.tag = tag
    · simp [h, State.callReexam]
    · simp [h]

section
variable {s : State} {k : ChanIx} {a : Active} {tag : Tag}

theorem State.expireAlloc_out {p : Port} (hreq : s.hasRequest p tag .allocate)
    (h : ∃ e ∈ s.allocWaits, e.port = p ∧ e.tag = tag ∧ e.timer = some .ranOut) :
    s.expireAlloc p tag = { s.setHpi p ((s.hpi p).afterCompletion tag .allocate .timedOut {} s.stamp) with
      allocWaits := s.allocWaits.eraseP (fun e => decide (e.port = p ∧ e.tag = tag))
      reexamsDue := s.reexamsDue +
        (match s.allocWaits with
          | [] => 0
          | x :: _ => if x.port = p ∧ x.tag = tag then 1 else 0) } := by
  have hany : s.allocWaits.any (fun e => AllocWait.isOf p tag e && e.timer == some .ranOut) = true := by
    obtain ⟨e, he, hp, ht, hk⟩ := h
    exact List.any_eq_true.2 ⟨e, he, by simp [AllocWait.isOf, hp, ht, hk]⟩
  rw [State.expireAlloc, if_pos hany, s.dropAllocWait_eq]
  exact State.complete_eq _ p tag .allocate .timedOut {} hreq

theorem State.expireAlloc_none {p : Port}
    (h : ∀ e ∈ s.allocWaits, ¬(e.port = p ∧ e.tag = tag ∧ e.timer = some .ranOut)) : s.expireAlloc p tag = s := by
  refine if_neg fun hany => ?_
  obtain ⟨e, he, hout⟩ := List.any_eq_true.1 hany
  rw [AllocWait.isOf_eq, Bool.and_eq_true, decide_eq_true_eq, beq_iff_eq, and_assoc] at hout
  exact h e he hout

theorem State.expireTake_out (hc : s.chan k = .active a)
    (h : ∃ w ∈ a.takeWaits, decide (w = (⟨tag, some .ranOut⟩ : Wait)) = true)
    (hreq : s.hasRequest a.params.consumer tag .take) :
    s.expireTake k tag = (s.setHpi a.params.consumer ((s.hpi a.params.consumer).afterCompletion tag .take .timedOut
      { channel := BitVec.ofNat 4 k.val } s.stamp)).setChan k
        (.active { a with takeWaits := a.takeWaits.eraseP fun w => decide (w = ⟨tag, some .ranOut⟩) }) := by
  have hany : a.takeWaits.any (Wait.expired tag) = true := by
    rw [Wait.expired_eq]
    exact List.any_eq_true.2 h
  rw [State.expireTake, hc]
  simp only [Chan.active?, hany, if_true]
  rw [State.complete_setChan, State.complete_eq _ _ _ _ _ _ hreq, Wait.expired_eq]
  rfl

theorem State.expireCollect_out (hc : s.chan k = .active a)
    (h : ∃ w ∈ a.collectWaits, decide (w = (⟨tag, some .ranOut⟩ : Wait)) = true)
    (hreq : s.hasRequest a.params.producer tag .collect) :
    s.expireCollect k tag = (s.setHpi a.params.producer ((s.hpi a.params.producer).afterCompletion tag .collect .timedOut
      { channel := BitVec.ofNat 4 k.val } s.stamp)).setChan k
        (.active { a with collectWaits := a.collectWaits.eraseP fun w => decide (w = ⟨tag, some .ranOut⟩) }) := by
  have hany : a.collectWaits.any (Wait.expired tag) = true := by
    rw [Wait.expired_eq]
    exact List.any_eq_true.2 h
  rw [State.expireCollect, hc]
  simp only [Chan.active?, hany, if_true]
  rw [State.complete_setChan, State.complete_eq _ _ _ _ _ _ hreq, Wait.expired_eq]
  rfl

theorem Wait.none_expired {ws : List Wait} (h : ∀ w ∈ ws, decide (w = (⟨tag, some .ranOut⟩ : Wait)) = false) :
    ws.any (Wait.expired tag) = false := by
  rw [Wait.expired_eq]
  exact List.any_eq_false.2 fun w hw => by simpa using h w hw

theorem State.expireTake_none (hc : s.chan k = .active a)
    (h : ∀ w ∈ a.takeWaits, decide (w = (⟨tag, some .ranOut⟩ : Wait)) = false) : s.expireTake k tag = s := by
  rw [State.expireTake, hc]
  exact if_neg (by simp [Wait.none_expired h])

theorem State.expireCollect_none (hc : s.chan k = .active a)
    (h : ∀ w ∈ a.collectWaits, decide (w = (⟨tag, some .ranOut⟩ : Wait)) = false) : s.expireCollect k tag = s := by
  rw [State.expireCollect, hc]
  exact if_neg (by simp [Wait.none_expired h])

end

/-- Settles O43, list by list: an expired entry leaves its list and its request completes; without one nothing happens. -/
theorem waitTimersExpire : Obligations.WaitTimersExpire := by
  refine ⟨fun s p tag hreq h => congrArg Host.Outcome.next (State.expireAlloc_out hreq h),
    fun s p tag h => congrArg Host.Outcome.next (State.expireAlloc_none h), fun s k a tag hc => ⟨?_, ?_, ?_, ?_⟩,
    fun s k tag h => ⟨?_, ?_⟩⟩
  · exact fun h hreq => congrArg Host.Outcome.next (State.expireTake_out hc h hreq)
  · exact fun h hreq => congrArg Host.Outcome.next (State.expireCollect_out hc h hreq)
  · exact fun h => congrArg Host.Outcome.next (State.expireTake_none hc h)
  · exact fun h => congrArg Host.Outcome.next (State.expireCollect_none hc h)
  · exact congrArg Host.Outcome.next (by rw [State.expireTake, h])
  · exact congrArg Host.Outcome.next (by rw [State.expireCollect, h])

/-! ### Handle checks that pass, and FREE -/

/-- A handle that passes the checks of R15. -/
theorem State.handlePasses.checks {s : State} {p : Port} {r : Request} {accepts : List DescState}
    (h : s.handlePasses p r accepts) : firstFail (s.handleChecks p r.handle (handleBad r.handle) accepts) = none := by
  obtain ⟨hbad, hstale, hholder, hstate⟩ := h
  rw [State.firstFail_handleChecks, hbad, hstale]
  simp [hholder, hstate]

theorem State.presents.exec_free {s : State} {p : Port} {r : Request} (h : s.presents .free p r) :
    exec (.free p) s = .next (settleFree r p s) := congrArg Host.Outcome.next (h.present settleFree)

/-- A completion, in a state that differs from one where the request is outstanding in no HPI. -/
theorem State.complete_of_ports {s u : State} {p : Port} {tag : Tag} {k : ReqKind} (h : s.hasRequest p tag k)
    (hp : u.ports = s.ports) (hk : u.ticks = s.ticks) (code : ResultCode) (v : Vals) :
    u.complete p tag code v = u.setHpi p ((s.hpi p).afterCompletion tag k code v s.stamp) := by
  have hhpi := State.hpi_of_ports hp p
  rw [State.complete_eq u p tag k code v (h.of_hpi hhpi), hhpi]
  congr 2
  rw [State.stamp, hk, State.stamp]

theorem State.freeDesc_ticks (s : State) (i : DescIx) : (s.freeDesc i).ticks = s.ticks := by
  obtain ⟨d, x, f, r, n, h⟩ := s.freeDesc_frame i
  rw [h]

/-- The state in which descriptor `i` became FREE, with another HPI for one port. -/
theorem State.becameFree.setHpi {s t : State} {i : DescIx} (h : s.becameFree t i) (p : Port) (x : Hpi) :
    s.becameFree (t.setHpi p x) i := h

/-- Settles O39: the checks pass, and the buffer is freed before the completion is written. -/
theorem freeReturnsTheBuffer : Obligations.FreeReturnsTheBuffer := by
  intro s p r hpres hpass i hn
  have hstate : (s.desc i).state ≠ .free := fun h => by
    have hmem := hpass.2.2.2
    rw [show (s.desc (handleIx r.handle)).state = .free from h] at hmem
    exact absurd hmem (by decide)
  have hsettle : settleFree r p s = (s.freeDesc i).setHpi p ((s.hpi p).afterCompletion r.tag .free .done
      { blockCount := (s.desc i).blockList.length } s.stamp) := by
    rw [settleFree, hpass.checks]
    exact State.complete_of_ports hpres.hasRequest (s.freeDesc_ports i) (s.freeDesc_ticks i) .done _
  refine ⟨_, hpres.exec_free, ?_⟩
  rw [hsettle]
  refine ⟨(s.becameFree_freeDesc i hstate hn).setHpi p _, State.hpi_setHpi_same _ _ _, fun q hq => ?_, ?_⟩
  · rw [State.hpi_setHpi_ne _ _ hq.symm, s.freeDesc_hpi]
  · obtain ⟨d, x, f, y, m, h⟩ := s.freeDesc_frame i
    rw [h]
    rfl

/-! ### Device reset and the memory clear -/

theorem State.deviceReset_block (s : State) (b : BlockIx) : s.deviceReset.block b = ⟨.free, false⟩ := by
  simp [State.deviceReset, State.reset, State.block]

theorem State.deviceReset_charged (s : State) (p : Port) : s.deviceReset.charged p = 0 := by
  rw [State.charged_eq]
  simp [s.deviceReset_desc, Desc.charge, Desc.buf]

/-- A word without upset or fault is found as written. -/
theorem State.finding_sound {s : State} {w : MemIx} (hu : s.upset w = 0#22) (hk : s.stuck w = Stuck.none) :
    s.finding w = .noError := by
  have hm : s.wordErrors w = 0#22 := by
    rw [State.wordErrors, hu, hk]
    rfl
  rw [State.finding, hm]
  rfl

/-- Settles O36, event by event. -/
theorem deviceResetAndMemoryClear : Obligations.DeviceResetAndMemoryClear := by
  intro s
  refine ⟨⟨s.deviceReset, rfl, rfl, rfl, rfl, fun p => ⟨s.hpi_deviceReset p, PerPort.get_all 128 p,
      s.deviceReset_charged p, rfl⟩, s.deviceReset_desc, s.deviceReset_block, ?_, rfl, rfl, rfl, s.deviceReset_chan, rfl,
      rfl, rfl, rfl, fun w => ⟨rfl, rfl⟩⟩, fun h => ⟨_, congrArg Host.Outcome.next (if_pos h), rfl, fun w => ⟨?_, rfl, ?_⟩,
      rfl⟩, fun h => ?_, fun h => ?_, fun h => congrArg Host.Outcome.next (if_pos h)⟩
  · simp only [State.deviceReset, State.reset]
  · show (0#8 ++ 0#8 : Word) = 0#16
    rfl
  · exact State.finding_sound (s := { s.zeroMemory with resetIn := false }) rfl
  · exact congrArg Host.Outcome.next (if_neg (by simp [h]))
  · exact congrArg Host.Outcome.next (if_neg (by simp [h]))

end Sys2Proof.Machine

/-!
PROOFS. Accepted submissions, ATTACH, and the writes to the words of the window.
-/

namespace Sys2Proof.Machine

/-! ### Accepted submissions (R133, R134, R161) -/

section
variable {s : State} {p : Port}

/-- An ACCEPTED answer is given to a request of one of the 23 kinds (R132). -/
theorem State.kind_of_accepted (h : s.submitAnswer p = .accepted) : ∃ k, kindOf (stagedKind (s.hpi p).staging) = some k := by
  cases hk : kindOf (stagedKind (s.hpi p).staging) with
  | some k => exact ⟨k, rfl⟩
  | none =>
    simp only [State.submitAnswer, hk] at h
    split_ifs at h

theorem State.submit_accepted {k : ReqKind} (htaken : s.busTaken p = true) (h : s.answerByTable p = 0x0008#16)
    (hk : kindOf (stagedKind (s.hpi p).staging) = some k) : s.submit p = (s.enter p k).driveData p 0x0008#16 := by
  have ha : s.submitAnswer p = .accepted := by
    rwa [← State.answerCode_submitAnswer, answerCode_eq_accepted_iff] at h
  rw [State.submit, if_pos htaken, ha, hk]
  rfl

/-- The fields of the copied record in the bits of the staging words (R177). -/
theorem stagedRequest_fields (w : Vector Word 8) (k : ReqKind) :
    (stagedRequest w k).channel.toNat = w[2].toNat % 32 ∧ (stagedRequest w k).peer.toNat = w[2].toNat / 32 % 8 ∧
      (stagedRequest w k).chanKind.toNat = w[2].toNat / 256 % 4 ∧ (stagedRequest w k).slot.toNat = w[2].toNat / 1024 := by
  have hlt := w[2].isLt
  refine ⟨?_, ?_, ?_, ?_⟩ <;>
    simp only [stagedRequest, BitVec.extractLsb'_toNat, Nat.shiftRight_eq_div_pow, Nat.reducePow] <;> omega

/-- Of an OFFLINE port of a READY device with nothing outstanding, an ATTACH is ACCEPTED (R132). -/
theorem State.answerByTable_attach (hd : s.device = .ready) (hoff : (s.hpi p).state = .offline) (hb : (s.hpi p).bare)
    (hk : (s.hpi p).kindField = 1) : s.answerByTable p = 0x0008#16 := by
  obtain ⟨htable, hqueue, -⟩ := hb
  simp [State.answerByTable, hd, hoff, hk, htable, hqueue]

/-- The submission of an ATTACH brings the OFFLINE port ONLINE (R134). -/
theorem State.submit_attach (htaken : s.busTaken p = true) (hd : s.device = .ready) (hoff : (s.hpi p).state = .offline)
    (hb : (s.hpi p).bare) (hk : (s.hpi p).kindField = 1) :
    s.submit p = s.setHpi p { s.hpi p with
      state := .online
      dataOut := 0x0008#16
      queue := [.completion .done (BitVec.ofNat 8 (s.hpi p).tagField) .attach
        { v0 := BitVec.ofNat 16 (s.quotas.get p), v1 := BitVec.ofNat 16 (s.charged p) } s.stamp] } := by
  have hkind : kindOf (stagedKind (s.hpi p).staging) = some .attach :=
    Decidable.not_not.1 (mt (Hpi.stagedKind_ne_attach_iff _).1 (not_not.2 hk))
  have honline : s.online p = false := by simp [State.online, hoff]
  have htag : stagedTag (s.hpi p).staging = BitVec.ofNat 8 (s.hpi p).tagField := by
    rw [← stagedTag_toNat, BitVec.ofNat_toNat, BitVec.setWidth_eq]
  have ⟨htable, hqueue, _⟩ := hb
  rw [State.submit_accepted htaken (State.answerByTable_attach hd hoff hb hk) hkind, State.enter, honline]
  simp only [Bool.false_eq_true, if_false, State.attachNow_eq, State.driveData, State.hpi_setHpi_same,
    State.setHpi_setHpi, hqueue, List.nil_append, stagedRequest, htag, htable]
  rfl

end

/-- Settles O20: by the submit word's answer, with the staging words read field by field. -/
theorem acceptedSubmissionsAndAttach : Obligations.AcceptedSubmissionsAndAttach := by
  refine ⟨fun s p htaken hon h => ?_, fun s p c hc htaken hd hoff hb hk => ?_, fun s p r hpres => ?_⟩
  · have ha : s.submitAnswer p = .accepted := by
      rwa [← State.answerCode_submitAnswer, answerCode_eq_accepted_iff] at h
    obtain ⟨k, hk⟩ := State.kind_of_accepted ha
    obtain ⟨hchan, hpeer, hkind, hslot⟩ := stagedRequest_fields (s.hpi p).staging k
    refine ⟨_, stagedRequest (s.hpi p).staging k, congrArg Host.Outcome.next (State.submit_accepted htaken h hk), ?_,
      ?_, stagedTag_toNat _, rfl, hchan, hpeer, hkind, hslot, rfl, rfl, rfl, rfl, rfl⟩
    · rw [State.enter, if_pos hon, State.driveData, State.hpi_setHpi_same, State.setHpi_setHpi]
    · rw [← stagedKind_toNat]
      exact (kindOf_eq_some_iff _ _).1 hk
  · have hkind : kindOf (stagedKind (s.hpi p).staging) = some .attach :=
      Decidable.not_not.1 (mt (Hpi.stagedKind_ne_attach_iff _).1 (not_not.2 hk))
    have hexec : exec c s = .next (s.submit p) := by
      rcases hc with rfl | rfl
      · rfl
      · refine congrArg Host.Outcome.next ?_
        rw [if_pos hoff, if_pos hkind]
    rw [hexec, State.submit_attach htaken hd hoff hb hk]
  · have hon : (s.hpi p).state ≠ .offline := by
      have := State.online_iff.1 hpres.1
      rw [this]
      exact nofun
    exact hpres.completes (congrArg Host.Outcome.next ((if_neg hon).trans (hpres.present settleAttach)))

/-! ### Window writes (R110, R128, R173) -/

theorem mergeBytes_low (w : BusWrite) (old : Word) :
    (mergeBytes w old).extractLsb' 0 8 = if w.low then w.data.extractLsb' 0 8 else old.extractLsb' 0 8 := by
  rw [mergeBytes, BitVec.extractLsb'_append_eq_of_add_le (by omega), BitVec.extractLsb'_eq_self]

theorem mergeBytes_high (w : BusWrite) (old : Word) :
    (mergeBytes w old).extractLsb' 8 8 = if w.high then w.data.extractLsb' 8 8 else old.extractLsb' 8 8 := by
  rw [mergeBytes, BitVec.extractLsb'_append_eq_of_le (by omega), BitVec.extractLsb'_eq_self]

theorem windowWord_staging {addr : BitVec 15} {k : Fin 8} (h : addr.toNat = 0x4000 + k.val) :
    windowWord addr = .staging k := by
  have hk := k.isLt
  have h0 : ¬addr.toNat < 0x4000 := by omega
  have h8 : addr.toNat - 0x4000 < 8 := by omega
  have hval : (⟨addr.toNat - 0x4000, h8⟩ : Fin 8) = k := Fin.ext (by simp only; omega)
  rw [windowWord, if_neg h0, dif_pos h8, hval]

section
variable {s : State} {p : Port} {w : BusWrite}

/-- A word above the staging words that has no row of its own takes no write. -/
theorem State.busWrite_other {addr : BitVec 15} (hwf : hasOwnWriteRow addr = false) (h : 0x4008 ≤ addr.toNat) :
    s.busWrite p addr w = s := by
  simp only [hasOwnWriteRow, Bool.or_eq_false_iff, decide_eq_false_iff_not, beq_eq_false_iff_ne, ne_eq,
    BitVec.toNat_eq] at hwf
  obtain ⟨⟨⟨-, hconsume⟩, henable⟩, hclear⟩ := hwf
  have h0 : ¬addr.toNat < 0x4000 := by omega
  have h8 : ¬addr.toNat - 0x4000 < 8 := by omega
  have hword : ∀ x, windowWord addr = x → (∀ a, x ≠ .aperture a) ∧ (∀ k, x ≠ .staging k) ∧ x ≠ .consume ∧ x ≠ .enable ∧
      x ≠ .faultClear := by
    rintro x rfl
    rw [windowWord, if_neg h0, dif_neg h8, if_neg (c := addr.toNat = 0x4018) hconsume,
      if_neg (c := addr.toNat = 0x4021) henable, if_neg (c := addr.toNat = 0x4025) hclear]
    split_ifs <;> simp
  obtain ⟨ha, hs, hc, he, hf⟩ := hword _ rfl
  rw [State.busWrite]
  split
  case h_1 k hk => exact absurd hk (hs k)
  case h_2 a hk => exact absurd hk (ha a)
  case h_3 hk => exact absurd hk hc
  case h_4 hk => exact absurd hk he
  case h_5 hk => exact absurd hk hf
  all_goals rfl

theorem State.writeStaging_taken (h : s.busTaken p = true) (k : Fin 8) :
    s.writeStaging p k w =
      s.setHpi p { s.hpi p with staging := (s.hpi p).staging.set k (mergeBytes w (s.hpi p).staging[k]) } := if_pos h

theorem State.writeStaging_ignored (h : s.busTaken p = false) (k : Fin 8) : s.writeStaging p k w = s :=
  if_neg (by simp [h])

end

/-- Settles O21, by the word of the window the write names. -/
theorem windowWrites : Obligations.WindowWrites := by
  refine ⟨fun s p addr k w htaken haddr => ?_, fun s p addr w hwf h => ?_, fun s p w => congrArg Host.Outcome.next ?_⟩
  · have hexec : exec (.registerWrite p addr w) s = .next (s.setHpi p { s.hpi p with
        staging := (s.hpi p).staging.set k (mergeBytes w (s.hpi p).staging[k]) }) := by
      refine congrArg Host.Outcome.next ?_
      rw [State.busWrite, windowWord_staging haddr]
      exact State.writeStaging_taken htaken k
    refine ⟨_, hexec, ?_, ?_, ?_, fun j hj => ?_⟩ <;> simp only [State.hpi_setHpi_same]
    · rw [← mergeBytes_low]
      exact congrArg (BitVec.extractLsb' 0 8) (Vector.getElem_set_self _)
    · rw [← mergeBytes_high]
      exact congrArg (BitVec.extractLsb' 8 8) (Vector.getElem_set_self _)
    · exact Vector.getElem_set_ne _ _ (fun h => hj (Fin.ext h.symm))
  · refine congrArg Host.Outcome.next ?_
    have hrow : hasOwnWriteRow addr = false := by simpa [Instr.wf] using hwf
    by_cases h8 : 0x4008 ≤ addr.toNat
    · exact State.busWrite_other hrow h8
    · have h0 : ¬addr.toNat < 0x4000 := fun hlt => by simp [hasOwnWriteRow, hlt] at hrow
      have hk : addr.toNat - 0x4000 < 8 := by omega
      rw [State.busWrite, windowWord_staging (k := ⟨addr.toNat - 0x4000, hk⟩) (by simp only; omega)]
      exact State.writeStaging_ignored (h.resolve_right h8) _
  · rw [State.clearFault]
    simp only [Bool.and_eq_true]

end Sys2Proof.Machine

/-!
PROOFS. Aperture accesses that are served, and the upsets of stored bits and what finds them.
-/

namespace Sys2Proof.Machine

/-! ### Served accesses (R107, R108, R116) -/

section
variable {s : State} {p : Port} {i : DescIx} {o : Nat} {w : MemIx}

theorem findingOf_zero (d : Word) : findingOf d 0#22 = .noError := rfl

theorem findingOf_one {d : Word} {m : StoredBits} (h : bitCount m = 1) : findingOf d m = .corrected d := by
  simp only [findingOf, h]

theorem findingOf_two {d : Word} {m : StoredBits} (h : bitCount m = 2) : findingOf d m = .uncorrectable := by
  simp only [findingOf, h]

theorem State.readData_noError (h : s.finding w = .noError) :
    s.readData w = dataRead (s.written w) (s.wordErrors w) := by rw [State.readData, h]

theorem State.readData_corrected {d : Word} (h : s.finding w = .corrected d) : s.readData w = d := by
  rw [State.readData, h]

theorem State.serveRead_noError (h : s.finding ((s.desc i).wordAt o) = .noError) (p : Port) :
    s.serveRead p i o =
      s.driveData p (dataRead (s.written ((s.desc i).wordAt o)) (s.wordErrors ((s.desc i).wordAt o))) := by
  rw [State.serveRead, State.readData_noError h]
  simp only [h]

theorem State.serveRead_corrected {d : Word} (h : s.finding ((s.desc i).wordAt o) = .corrected d) (p : Port) :
    s.serveRead p i o = (s.driveData p d).storeWord ((s.desc i).wordAt o) d := by
  rw [State.serveRead, State.readData_corrected h]
  simp only [h]
  rfl

theorem State.serveWrite_whole {x : BusWrite} (hl : x.low = true) (hh : x.high = true) :
    s.serveWrite p i o x = s.storeWord ((s.desc i).wordAt o) x.data := by
  rw [State.serveWrite, hl, hh]

theorem State.serveWrite_nothing {x : BusWrite} (hl : x.low = false) (hh : x.high = false) :
    s.serveWrite p i o x = s := by
  rw [State.serveWrite, hl, hh]

/-- A one-byte write to a word without an uncorrectable error marks nothing (R118). -/
theorem State.serveWrite_merged (h : s.finding ((s.desc i).wordAt o) ≠ .uncorrectable) {x : BusWrite}
    (hx : x.low ≠ x.high) :
    s.serveWrite p i o x =
      s.storeWord ((s.desc i).wordAt o) (mergeBytes x (s.readData ((s.desc i).wordAt o))) := by
  rw [State.serveWrite_byte s p i o hx, if_neg h]

end

/-- Settles O26, by the finding on the word and the strobes. -/
theorem apertureAccessServed : Obligations.ApertureAccessServed := by
  intro s p addr dir h i hwf hreach
  refine ⟨fun h0 => ?_, fun h1 => findingOf_one h1, fun h2 => findingOf_two h2, ?_, ?_, ?_, ?_, ?_⟩
  · rw [State.finding, h0]
    exact ⟨rfl, BitVec.xor_zero⟩
  · rintro rfl hf
    rw [hreach.exec_apertureRead, State.serveRead_noError hf]
    rfl
  · rintro d rfl hf
    rw [hreach.exec_apertureRead, State.serveRead_corrected hf]
    exact ⟨_, rfl, State.storeWord_spec (s := s.driveData p d) hwf _ d, rfl⟩
  · rintro x rfl hl hh
    rw [hreach.exec_apertureWrite, State.serveWrite_whole hl hh]
    exact ⟨_, rfl, State.storeWord_spec hwf _ x.data, rfl⟩
  · rintro x old rfl hx hold
    have hold' : s.finding ((s.desc i).wordAt (apertureOffset addr)) ≠ .uncorrectable ∧
        s.readData ((s.desc i).wordAt (apertureOffset addr)) = old := by
      rcases hold with ⟨hf, rfl⟩ | hf
      · exact ⟨by simp [hf], State.readData_noError hf⟩
      · exact ⟨by simp [hf], State.readData_corrected hf⟩
    rw [hreach.exec_apertureWrite, State.serveWrite_merged hold'.1 hx, hold'.2]
    exact ⟨_, rfl, State.storeWord_spec hwf _ _, rfl⟩
  · rintro x rfl hl hh
    rw [hreach.exec_apertureWrite, State.serveWrite_nothing hl hh]

/-! ### Upsets (R114, 7.5) -/

theorem errorBits_sound (d : Word) (m : StoredBits) : errorBits d m Stuck.none = m := if_pos rfl

section
variable (s : State) (w : MemIx) (flips cells level : StoredBits)

/-- The state after an upset, but for the note of it. -/
theorem State.upset_upsetWord (hs : s.memoryWf) (v : MemIx) :
    (s.upsetWord w flips cells level).upset v = if v = w then s.upset w ^^^ flips else s.upset v :=
  upset_flipBits s w v flips hs.2.1

theorem State.stuck_upsetWord (hs : s.memoryWf) (v : MemIx) :
    (s.upsetWord w flips cells level).stuck v = if v = w then (s.stuck w).add cells level else s.stuck v := by
  simp only [State.stuck, State.upsetWord]
  split_ifs with h
  · rw [h, cellGet_cellSet_same hs.2.2]
  · exact cellGet_cellSet_ne hs.2.2 fun e => h (Fin.ext e.symm)

theorem State.written_upsetWord (v : MemIx) : (s.upsetWord w flips cells level).written v = s.written v := rfl

theorem State.noteUpset_upsetWord_memory :
    ((s.noteUpset w flips cells).upsetWord w flips cells level).mem = (s.upsetWord w flips cells level).mem ∧
      ((s.noteUpset w flips cells).upsetWord w flips cells level).upsets = (s.upsetWord w flips cells level).upsets ∧
      ((s.noteUpset w flips cells).upsetWord w flips cells level).stuckCells =
        (s.upsetWord w flips cells level).stuckCells := by
  rw [noteUpset_frame s w flips cells]
  exact ⟨rfl, rfl, rfl⟩

/-- No note is made of an upset outside the block under test. -/
theorem State.noteUpset_outside (h : ∀ x : Retest, s.retest = some x → w.val / 128 ≠ x.block.val) :
    s.noteUpset w flips cells = s := by
  unfold State.noteUpset
  split
  · rfl
  next x hx => exact if_neg (h x hx)

theorem State.noteUpset_inside {x : Retest} (hx : s.retest = some x) (h : w.val / 128 = x.block.val) :
    s.noteUpset w flips cells =
      { s.drawn with retest := some (x.disturb w flips (cells &&& ~~~(s.stuck w).cells) s.freeValue) } := by
  simp only [State.noteUpset, hx, h, if_true]

end

/-- The memory of two states agrees on what is stored, upset and stuck in a word. -/
theorem State.word_of_memory {s t : State} (hm : t.mem = s.mem) (hu : t.upsets = s.upsets)
    (hk : t.stuckCells = s.stuckCells) (v : MemIx) :
    t.written v = s.written v ∧ t.upset v = s.upset v ∧ t.stuck v = s.stuck v := by
  simp only [State.written, State.byteAt, State.upset, State.stuck, hm, hu, hk, and_self]

/-- What the command leaves of the words of buffer memory. -/
theorem State.word_after_upset (s : State) (w : MemIx) (flips cells level : StoredBits) (hs : s.memoryWf) (v : MemIx) :
    let t := (s.noteUpset w flips cells).upsetWord w flips cells level
    t.written v = s.written v ∧ t.upset v = (if v = w then s.upset w ^^^ flips else s.upset v) ∧
      t.stuck v = (if v = w then (s.stuck w).add cells level else s.stuck v) := by
  obtain ⟨hm, hu, hk⟩ := s.noteUpset_upsetWord_memory w flips cells level
  obtain ⟨hw, hup, hst⟩ := State.word_of_memory hm hu hk v
  exact ⟨hw, hup.trans (s.upset_upsetWord w flips cells level hs v), hst.trans (s.stuck_upsetWord w flips cells level hs v)⟩

theorem Stuck.add_none_cells (k : Stuck) (level : StoredBits) (h : k = Stuck.none) : k.add 0#22 level = Stuck.none := by
  subst h
  simp [Stuck.add, Stuck.none]

/-- The cells of a word after an upset, bit by bit (assumption 16). -/
theorem Stuck.add_bits (k : Stuck) (cells level : StoredBits) (j : Nat) (hj : j < 22) :
    (k.add cells level).cells.getLsbD j = (k.cells.getLsbD j || cells.getLsbD j) ∧
      ((k.add cells level).cells.getLsbD j = true → (k.add cells level).level.getLsbD j =
        if k.cells.getLsbD j then k.level.getLsbD j else level.getLsbD j) := by
  simp only [Stuck.add, BitVec.getLsbD_or, BitVec.getLsbD_and, BitVec.getLsbD_not, hj]
  cases k.cells.getLsbD j <;> cases cells.getLsbD j <;> simp

/-- The error bits of a word one of whose data cells is stuck. -/
theorem errorBits_stuckCell (d : Word) (level : StoredBits) {j : Nat} (hj : j < 16) :
    errorBits d 0#22 (Stuck.none.add (BitVec.twoPow 22 j) level) =
      if d.getLsbD j = level.getLsbD j then 0#22 else BitVec.twoPow 22 j := by
  have hj22 : j < 22 := by omega
  have hcells : (Stuck.none.add (BitVec.twoPow 22 j) level).cells = BitVec.twoPow 22 j := by simp [Stuck.add, Stuck.none]
  have hlevel : (Stuck.none.add (BitVec.twoPow 22 j) level).level.getLsbD j = level.getLsbD j := by
    have hbits := (Stuck.add_bits Stuck.none (BitVec.twoPow 22 j) level j hj22).2
    rw [hcells] at hbits
    simpa [Stuck.none, hj22] using hbits
  have hne : BitVec.twoPow 22 j ≠ 0#22 := fun h => by
    have := congrArg (·.getLsbD j) h
    simp [hj22] at this
  rw [errorBits, hcells, if_neg hne, BitVec.zero_and, BitVec.zero_or]
  apply BitVec.eq_of_getLsbD_eq
  intro i hi
  have hcode : (codeword d).getLsbD j = d.getLsbD j := by
    rw [codeword, BitVec.getLsbD_append, if_pos hj]
  rw [BitVec.getLsbD_and, BitVec.getLsbD_xor, BitVec.getLsbD_twoPow]
  by_cases hij : j = i
  · subst hij
    rw [hcode, hlevel]
    split_ifs with h <;> simp_all
  · split_ifs <;> simp [hij]

/-- The moment noted of an upset lies between that of the upset before it and the end of the test. -/
theorem State.retestLaw.moment {s : State} (hs : s.retestLaw) {x : Retest} (hx : s.retest = some x) (y : Word) :
    ∃ m : Nat, x.lastMoment ≤ m ∧ m ≤ 896 ∧ ∀ w flips cells,
      x.disturb w flips cells y = { x with disturbed := x.disturbed ++ [⟨w, flips, cells, m⟩] } := by
  have hlast : x.lastMoment ≤ testOps := by
    obtain ⟨-, -, -, hd⟩ := hs x hx
    rw [Retest.lastMoment]
    cases hl : x.disturbed.getLast? with
    | none => exact Nat.zero_le _
    | some d => exact (hd d (List.mem_of_getLast? hl)).2
  have hmod := Nat.mod_lt y.toNat (show 0 < testOps + 1 - x.lastMoment by omega)
  unfold testOps at hlast hmod
  exact ⟨x.lastMoment + y.toNat % (testOps + 1 - x.lastMoment), by omega, by unfold testOps; omega, fun _ _ _ => rfl⟩

/-- Settles O46: the words after the command, and then its note in the RETEST record. -/
theorem upsetsAreFound : Obligations.UpsetsAreFound := by
  refine ⟨fun s w flips level hs hk hu => ⟨⟨_, rfl, ?_⟩, fun j hj => ⟨_, rfl, ?_⟩⟩, fun s w flips cells level hs =>
    ⟨_, rfl, ?_, ?_, ?_, ?_, fun h => ?_, fun x hx h hlaw => ?_⟩⟩
  · obtain ⟨hw, hup, hst⟩ := s.word_after_upset w flips 0#22 level hs w
    generalize State.upsetWord _ w flips 0#22 level = t at hw hup hst ⊢
    have herr : t.wordErrors w = flips := by
      rw [State.wordErrors, hup, if_pos rfl, hu, BitVec.zero_xor, hst, if_pos rfl, Stuck.add_none_cells _ _ hk,
        errorBits_sound]
    refine ⟨fun h1 => ?_, fun h2 => ?_⟩
    · rw [State.finding, herr, hw]
      exact findingOf_one h1
    · have hfind : t.finding w = .uncorrectable := by
        rw [State.finding, herr]
        exact findingOf_two h2
      refine ⟨hfind, ?_⟩
      rw [State.readData_uncorrectable hfind, hw, herr]
      rfl
  · obtain ⟨hw, hup, hst⟩ := s.word_after_upset w 0#22 (BitVec.twoPow 22 j) level hs w
    rw [State.wordErrors, hw, hup, if_pos rfl, hu, BitVec.zero_xor, hst, if_pos rfl, hk]
    exact errorBits_stuckCell _ _ hj
  · exact (s.word_after_upset w flips cells level hs w).2.1.trans (if_pos rfl)
  · intro j hj
    rw [(s.word_after_upset w flips cells level hs w).2.2, if_pos rfl]
    exact Stuck.add_bits _ _ _ j hj
  · exact fun v => (s.word_after_upset w flips cells level hs v).1
  · exact fun v hv => (s.word_after_upset w flips cells level hs v).2.imp (·.trans (if_neg hv)) (·.trans (if_neg hv))
  · rw [s.noteUpset_outside w flips cells h]
    rfl
  · obtain ⟨m, hlow, hhigh, hm⟩ := hlaw.moment hx s.freeValue
    refine ⟨m, hlow, hhigh, ?_⟩
    rw [s.noteUpset_inside w flips cells hx h, hm]
    rfl

end Sys2Proof.Machine

/-!
PROOFS. The block test: which tests pass, and what the end of a test leaves (R22, R124 to R126).
-/

namespace Sys2Proof.Machine

/-! ### The order of a test's operations -/

theorem countP_range_ops (n v m : Nat) :
    (List.range n).countP (fun j => decide (128 * j + v < m)) = min n ((m - v + 127) / 128) := by
  induction n with
  | zero => simp
  | succ n ih =>
    rw [List.range_succ, List.countP_append, ih, List.countP_singleton]
    split_ifs with h <;> simp only [decide_eq_true_eq] at h <;> omega

/-- The operations of a word that are done are the first ones of its seven (R124). -/
theorem lt_opsDone_iff (v m : Nat) {j : Nat} (hj : j < 7) : j < opsDone v m ↔ 128 * j + v < m := by
  rw [opsDone, countP_range_ops]
  omega

/-! ### Tests that pass and tests that fail -/

theorem readBackOk_sound (pattern : Word) : readBackOk 0#22 Stuck.none pattern = true := by
  have hread : dataRead pattern 0#22 = pattern := BitVec.xor_zero
  simp only [readBackOk, errorBits_sound, findingOf_zero, hread, BEq.rfl, Bool.and_self]

/-- A read-back that sees one upset bit finds a corrected error. -/
theorem readBackOk_upset {flips : StoredBits} (h : bitCount flips = 1) (pattern : Word) :
    readBackOk flips Stuck.none pattern = false := by
  simp only [readBackOk, errorBits_sound, findingOf_one h]
  rfl

/-- A read-back that sees a wrong data bit does not return the pattern. -/
theorem readBackOk_wrongBit {flips : StoredBits} {k : Stuck} {pattern : Word} {j : Nat} (hj : j < 16)
    (h : (errorBits pattern flips k).getLsbD j = true) : readBackOk flips k pattern = false := by
  have hne : dataRead pattern (errorBits pattern flips k) ≠ pattern := fun e => by
    have hbit := congrArg (·.getLsbD j) e
    simp [dataRead, hj, h] at hbit
  simp [readBackOk, hne]

/-- A stuck data cell is wrong under a pattern that writes the other bit to it. -/
theorem errorBits_stuck {pattern : Word} {flips : StoredBits} {k : Stuck} {j : Nat} (hj : j < 16)
    (hcell : k.cells.getLsbD j = true) (hlevel : pattern.getLsbD j = !k.level.getLsbD j) :
    (errorBits pattern flips k).getLsbD j = true := by
  have hne : k.cells ≠ 0#22 := fun h => by simp [h] at hcell
  have hcode : (codeword pattern).getLsbD j = pattern.getLsbD j := by
    rw [codeword, BitVec.getLsbD_append, if_pos hj]
  rw [errorBits, if_neg hne, BitVec.getLsbD_or, BitVec.getLsbD_and, BitVec.getLsbD_and, BitVec.getLsbD_xor, hcode,
    hlevel, hcell]
  cases k.level.getLsbD j <;> simp

/-- Every data cell is written as 0 and as 1 by the three patterns (R124). -/
theorem testPatterns_write_both : ∀ j < 16, ∀ bit : Bool, ∃ x ∈ testPatterns, x.2.getLsbD j = !bit := by decide

theorem cellsSince_getLsbD {ds : List Disturbance} {w : MemIx} {j : Nat}
    (h : ∀ d ∈ ds, d.word = w → d.cells.getLsbD j = false) (n : Nat) : (cellsSince ds w n).getLsbD j = false := by
  have hfold (m : StoredBits) (hm : m.getLsbD j = false) :
      (ds.foldl (fun m d => if d.word = w ∧ n ≤ d.opsDone then m ||| d.cells else m) m).getLsbD j = false := by
    induction ds generalizing m with
    | nil => exact hm
    | cons d ds ih =>
      rw [List.foldl_cons]
      refine ih (fun e he => h e (List.mem_cons_of_mem _ he)) _ ?_
      split_ifs with hd
      · rw [BitVec.getLsbD_or, hm, h d (List.mem_cons_self ..) hd.1]
        rfl
      · exact hm
  exact hfold 0#22 (by simp)

theorem Stuck.without_getLsbD (k : Stuck) {cells : StoredBits} {j : Nat} (hj : j < 22) (h : cells.getLsbD j = false) :
    (k.without cells).cells.getLsbD j = k.cells.getLsbD j ∧ (k.without cells).level.getLsbD j = k.level.getLsbD j := by
  simp only [Stuck.without, BitVec.getLsbD_and, BitVec.getLsbD_not, h, hj, decide_true, Bool.not_false, Bool.and_true,
    and_self]

/-- A word with a data cell stuck since before the test fails it. -/
theorem State.wordPasses_stuck {s : State} {w : MemIx} {ds : List Disturbance} {j : Nat} (hj : j < 16)
    (hcell : (s.stuck w).cells.getLsbD j = true) (h : ∀ d ∈ ds, d.word = w → d.cells.getLsbD j = false) :
    s.wordPasses ds w = false := by
  obtain ⟨x, hx, hbit⟩ := testPatterns_write_both j hj ((s.stuck w).level.getLsbD j)
  obtain ⟨hc, hl⟩ := (s.stuck w).without_getLsbD (j := j) (by omega) (cellsSince_getLsbD h (2 * x.1 + 2))
  refine List.all_eq_false.2 ⟨x, hx, ?_⟩
  rw [Bool.not_eq_true]
  exact readBackOk_wrongBit hj (errorBits_stuck hj (hc.trans hcell) (hbit.trans (by rw [hl])))

theorem flipsAfter_of_forall_ne {ds : List Disturbance} {w : MemIx} (h : ∀ d ∈ ds, d.word ≠ w) (n : Nat) :
    flipsAfter ds w n = 0#22 := by
  have hfold (m : StoredBits) :
      ds.foldl (fun m d => if d.word = w ∧ d.opsDone = n then m ^^^ d.flips else m) m = m := by
    induction ds generalizing m with
    | nil => rfl
    | cons d ds ih =>
      have hd : ¬(d.word = w ∧ d.opsDone = n) := fun hd => h d (List.mem_cons_self ..) hd.1
      rw [List.foldl_cons, if_neg hd]
      exact ih (fun e he => h e (List.mem_cons_of_mem _ he)) m
  exact hfold 0#22

theorem flipsAfter_singleton (d : Disturbance) (n : Nat) :
    flipsAfter [d] d.word n = if d.opsDone = n then d.flips else 0#22 := by simp [flipsAfter]

/-- The test of a sound word sees the upsets alone. -/
theorem State.wordPasses_sound {s : State} {w : MemIx} {ds : List Disturbance} (hk : s.stuck w = Stuck.none) :
    s.wordPasses ds w = testPatterns.all fun x => readBackOk (flipsAfter ds w (2 * x.1 + 1)) Stuck.none x.2 := by
  have hnone (cells : StoredBits) : Stuck.none.without cells = Stuck.none := by simp [Stuck.without, Stuck.none]
  simp only [State.wordPasses, hk, hnone]

/-- A sound word that no upset reaches passes. -/
theorem State.wordPasses_undisturbed {s : State} {w : MemIx} {ds : List Disturbance} (hk : s.stuck w = Stuck.none)
    (h : ∀ d ∈ ds, d.word ≠ w) : s.wordPasses ds w = true := by
  rw [State.wordPasses_sound hk]
  exact List.all_eq_true.2 fun x _ => by rw [flipsAfter_of_forall_ne h, readBackOk_sound]

/-- A sound word that one upset bit reaches fails exactly where it falls between a pattern's write and its read-back. -/
theorem State.wordPasses_oneUpset {s : State} {d : Disturbance} (hk : s.stuck d.word = Stuck.none)
    (hflips : bitCount d.flips = 1) :
    s.wordPasses [d] d.word = false ↔ d.opsDone = 1 ∨ d.opsDone = 3 ∨ d.opsDone = 5 := by
  have hread (n : Nat) (pattern : Word) :
      readBackOk (flipsAfter [d] d.word n) Stuck.none pattern = !decide (d.opsDone = n) := by
    rw [flipsAfter_singleton]
    split_ifs with h
    · simp [readBackOk_upset hflips, h]
    · simp [readBackOk_sound, h]
  rw [State.wordPasses_sound hk]
  simp only [hread, testPatterns, List.all_cons, List.all_nil, Bool.and_true, Bool.and_eq_false_iff,
    Bool.not_eq_false', decide_eq_true_eq]

/-- The word of its block that a word of buffer memory is. -/
theorem eq_blockWord {w : MemIx} {b : BlockIx} (h : w.val / 128 = b.val) : ∃ v, w = blockWord b v :=
  ⟨⟨w.val % 128, Nat.mod_lt _ (by decide)⟩, Fin.ext (by simp only [blockWord]; omega)⟩

theorem blockWord_block (b : BlockIx) (v : Fin 128) : (blockWord b v).val / 128 = b.val := by
  simp only [blockWord]
  omega

theorem State.blockTestPasses_eq_true {s : State} {b : BlockIx} {ds : List Disturbance} :
    s.blockTestPasses b ds = true ↔ ∀ w : MemIx, w.val / 128 = b.val → s.wordPasses ds w = true := by
  rw [State.blockTestPasses, List.all_eq_true]
  refine ⟨fun h w hw => ?_, fun h v _ => h _ (blockWord_block b v)⟩
  obtain ⟨v, rfl⟩ := eq_blockWord hw
  exact h v (List.mem_finRange v)

/-! ### The end of a test -/

section
variable {s : State} {x : Retest}

/-- The words of the block are zeros, but for the bits upset after the closing write of their word (R124). -/
theorem State.word_closeTest (hs : s.memoryWf) {b : BlockIx} {ds : List Disturbance}
    (hd : ∀ d ∈ ds, d.word.val / 128 = b.val) (w : MemIx) :
    if w.val / 128 = b.val then (s.closeTest b ds).written w = 0#16 ∧ (s.closeTest b ds).upset w = flipsAfter ds w 7
    else (s.closeTest b ds).written w = s.written w ∧ (s.closeTest b ds).upset w = s.upset w := by
  have hbyte (a : Nat) : (s.closeTest b ds).byteAt a = if a / 256 = b.val then 0#8 else s.byteAt a := by
    have hread := cellGet_filter (d := 0#8) (k := a) (m := s.mem) (fun k => decide (k / 256 ≠ b.val))
    have hmem : (s.closeTest b ds).mem = s.mem.filter (fun e => decide (e.1 / 256 ≠ b.val)) := by
      rw [closeTest_frame]
      rfl
    rw [State.byteAt, hmem, hread]
    by_cases h : a / 256 = b.val <;> simp [h, State.byteAt]
  have hhigh : (2 * w.val + 1) / 256 = w.val / 128 := by omega
  have hlow : 2 * w.val / 256 = w.val / 128 := by omega
  rw [State.written, hbyte, hbyte, hhigh, hlow, upset_closeTest s b ds w hs.2.1]
  split_ifs with h
  · exact ⟨rfl, BitVec.zero_xor⟩
  · refine ⟨rfl, ?_⟩
    rw [flipsAfter_of_forall_ne (fun d hdm hw => h (by rw [← hw]; exact hd d hdm)), BitVec.xor_zero]

/-- The state in which the result of the test of `x` has been taken. -/
def State.tested (s : State) (x : Retest) : State :=
  (s.closeTest x.block x.disturbed).takeResult x.block (s.blockTestPasses x.block x.disturbed)

theorem State.endTest_idle (h : s.retest = none) : s.endTest = s := by rw [State.endTest, h]

theorem State.endTest_goesOn (hx : s.retest = some x) {n : Nat} {b : BlockIx} {rest : List BlockIx}
    (hn : x.remaining = n + 2) (hr : (s.tested x).retired = b :: rest) :
    s.endTest = { s.tested x with retest := some ⟨x.requester, x.tested, n + 1,
      x.passed + flag (s.blockTestPasses x.block x.disturbed), b, []⟩ } := by
  have hrem : x.remaining - 1 = n + 1 := by omega
  rw [State.tested] at hr ⊢
  rw [State.endTest, hx]
  dsimp only
  split
  next m c cs hm hc =>
    obtain rfl : m = n := by omega
    obtain ⟨rfl, -⟩ := List.cons.inj (hc.symm.trans hr)
    rfl
  next hno => exact absurd hr (hno n b rest hrem)

theorem State.endTest_ends (hx : s.retest = some x) (hn : x.remaining = 1) :
    s.endTest = (s.tested x).endRetest x (x.passed + flag (s.blockTestPasses x.block x.disturbed)) := by
  have hrem : x.remaining - 1 = 0 := by omega
  simp only [State.endTest, hx, hrem]
  rfl

theorem State.tested_frame (s : State) (x : Retest) :
    s.tested x = { s with
      blocks := (s.tested x).blocks, freeList := (s.tested x).freeList, retired := (s.tested x).retired
      reexamsDue := (s.tested x).reexamsDue, mem := (s.tested x).mem, upsets := (s.tested x).upsets } := by
  rw [State.tested, closeTest_frame, State.takeResult]
  split_ifs <;> rfl

theorem State.tested_words (hs : s.memoryWf) (hd : ∀ d ∈ x.disturbed, d.word.val / 128 = x.block.val) (w : MemIx) :
    if w.val / 128 = x.block.val then
      (s.tested x).written w = 0#16 ∧ (s.tested x).upset w = flipsAfter x.disturbed w 7
    else (s.tested x).written w = s.written w ∧ (s.tested x).upset w = s.upset w := by
  have hmem (pass : Bool) (u : State) :
      (u.takeResult x.block pass).written w = u.written w ∧ (u.takeResult x.block pass).upset w = u.upset w := by
    cases pass <;> exact ⟨rfl, rfl⟩
  rw [State.tested, (hmem _ _).1, (hmem _ _).2]
  exact State.word_closeTest hs hd w

/-- Where the result takes the block: to the free list, a re-examination being called for, or to the tail of the retired
list (R22, R29). -/
theorem State.tested_pool {rest : List BlockIx} (hr : s.retired = x.block :: rest) :
    (s.blockTestPasses x.block x.disturbed = true → (s.tested x).block x.block = ⟨.free, false⟩ ∧
        (s.tested x).freeList = s.freeList ++ [x.block] ∧ (s.tested x).retired = rest ∧
        (s.tested x).reexamsDue = s.reexamsDue + 1) ∧
      (s.blockTestPasses x.block x.disturbed = false → (s.tested x).block x.block = s.block x.block ∧
        (s.tested x).freeList = s.freeList ∧ (s.tested x).retired = rest ++ [x.block] ∧
        (s.tested x).reexamsDue = s.reexamsDue) ∧
      ∀ b, b ≠ x.block → (s.tested x).block b = s.block b := by
  have hframe := closeTest_frame s x.block x.disturbed
  have hclose : (s.closeTest x.block x.disturbed).retired = x.block :: rest := by rw [hframe]; exact hr
  have hfree : (s.closeTest x.block x.disturbed).freeList = s.freeList := by rw [hframe]; rfl
  have hdue : (s.closeTest x.block x.disturbed).reexamsDue = s.reexamsDue := by rw [hframe]; rfl
  have hblock (b : BlockIx) : (s.closeTest x.block x.disturbed).block b = s.block b := by rw [hframe]; rfl
  obtain ⟨hf, hl⟩ := State.takeResult_lists hclose (s.blockTestPasses x.block x.disturbed)
  have hb := State.takeResult_block (s.closeTest x.block x.disturbed) x.block
  refine ⟨fun hp => ⟨?_, ?_, ?_, ?_⟩, fun hp => ⟨?_, ?_, ?_, ?_⟩, fun b hne => ?_⟩
  · rw [State.tested, hb, if_pos ⟨hp, rfl⟩]
  · rw [State.tested, hf, hp, hfree, if_pos rfl]
  · rw [State.tested, hl, hp, if_pos rfl, List.append_nil]
  · rw [State.tested, hp, ← hdue]
    rfl
  · rw [State.tested, hb, if_neg (by simp [hp]), hblock]
  · rw [State.tested, hf, hp, hfree, if_neg (by simp), List.append_nil]
  · rw [State.tested, hl, hp, if_neg (by simp)]
  · rw [State.tested, hp, ← hdue]
    rfl
  · rw [State.tested, hb, if_neg (fun h => hne h.2.symm), hblock]

/-- The end of an operation whose requester has gone (R126). -/
theorem State.endRetest_none (h : x.requester = none) (passed : Nat) :
    s.endRetest x passed = { s with retest := none } := by rw [State.endRetest, h]

theorem State.endRetest_some {p : Port} {tag : Tag} (h : x.requester = some (p, tag))
    (hreq : s.hasRequest p tag .retest) (passed : Nat) :
    s.endRetest x passed = State.setHpi { s with retest := none } p ((s.hpi p).afterCompletion tag .retest .done
      { v0 := BitVec.ofNat 16 x.tested, v1 := BitVec.ofNat 16 passed, v2 := BitVec.ofNat 16 s.retired.length }
      s.stamp) := by
  rw [State.endRetest, h]
  exact State.complete_eq { s with retest := none } p tag .retest .done _ hreq

/-- A state that differs from the one in which the result has been taken in the ports and the RETEST record alone. -/
def State.afterTest (s : State) (x : Retest) (t : State) : Prop :=
  t = { s.tested x with ports := t.ports, retest := t.retest }

theorem State.afterTest.block {t : State} (h : s.afterTest x t) (b : BlockIx) : t.block b = (s.tested x).block b := by
  rw [State.afterTest] at h
  rw [h]
  rfl

theorem State.afterTest.lists {t : State} (h : s.afterTest x t) :
    t.freeList = (s.tested x).freeList ∧ t.retired = (s.tested x).retired ∧
      t.reexamsDue = (s.tested x).reexamsDue := by
  rw [State.afterTest] at h
  rw [h]
  exact ⟨rfl, rfl, rfl⟩

theorem State.afterTest.words {t : State} (h : s.afterTest x t) (w : MemIx) :
    t.written w = (s.tested x).written w ∧ t.upset w = (s.tested x).upset w := by
  rw [State.afterTest] at h
  rw [h]
  exact ⟨rfl, rfl⟩

theorem State.afterTest.frame {t : State} (h : s.afterTest x t) :
    t = { s with
      ports := t.ports, blocks := t.blocks, freeList := t.freeList, retired := t.retired
      reexamsDue := t.reexamsDue, mem := t.mem, upsets := t.upsets, retest := t.retest } := by
  rw [State.afterTest, State.tested_frame] at h
  rw [h]

end

/-- What the end of a test leaves besides the result: the next test on the block now at the head of the retired list, or
the completion of the RETEST (R125, R126). -/
theorem State.endTest_spec {s : State} {x : Retest} (hx : s.retest = some x) (hlaw : s.retestLaw)
    (hreq : ∀ p tag, x.requester = some (p, tag) → s.hasRequest p tag .retest) :
    s.afterTest x s.endTest ∧
      (1 < x.remaining → s.endTest.ports = s.ports ∧ ∃ b, s.endTest.retired.head? = some b ∧
        s.endTest.retest = some ⟨x.requester, x.tested, x.remaining - 1, x.passed + (if s.blockTestPasses x.block x.disturbed then 1 else 0), b, []⟩) ∧
      (x.remaining = 1 → s.endTest.retest = none ∧ (x.requester = none → s.endTest.ports = s.ports) ∧
        ∀ p tag, x.requester = some (p, tag) → s.othersKept s.endTest p ∧
          s.endTest.hpi p = (s.hpi p).afterCompletion tag .retest .done
            { v0 := BitVec.ofNat 16 x.tested
              v1 := BitVec.ofNat 16 (x.passed + (if s.blockTestPasses x.block x.disturbed then 1 else 0))
              v2 := BitVec.ofNat 16 s.endTest.retired.length } s.stamp) := by
  obtain ⟨rest, hr, h1, hlen⟩ := hlaw.retired hx
  obtain ⟨hpass, hfail, -⟩ := State.tested_pool (s := s) hr
  have hports : (s.tested x).ports = s.ports := by rw [State.tested_frame]
  by_cases hmore : 1 < x.remaining
  · obtain ⟨n, hn⟩ : ∃ n, x.remaining = n + 2 := ⟨x.remaining - 2, by omega⟩
    obtain ⟨b, bs, hb⟩ : ∃ b bs, (s.tested x).retired = b :: bs := by
      refine List.exists_cons_of_ne_nil fun hnil => ?_
      cases hp : s.blockTestPasses x.block x.disturbed with
      | true =>
        have hlist : rest = [] := (hpass hp).2.2.1.symm.trans hnil
        rw [hlist] at hlen
        simp only [List.length_nil] at hlen
        omega
      | false =>
        have hlist : rest ++ [x.block] = [] := (hfail hp).2.2.1.symm.trans hnil
        simp at hlist
    rw [State.endTest_goesOn hx hn hb]
    refine ⟨rfl, fun _ => ⟨hports, b, by simp only [hb, List.head?_cons], ?_⟩, fun h => absurd h (by omega)⟩
    rw [hn]
    rfl
  · have hone : x.remaining = 1 := by omega
    rw [State.endTest_ends hx hone]
    refine ⟨?_, fun h => absurd h hmore, fun _ => ?_⟩
    · cases hq : x.requester with
      | none =>
        rw [State.endRetest_none hq]
        rfl
      | some q =>
        rw [State.endRetest_some hq ((hreq q.1 q.2 hq).of_hpi (State.hpi_of_ports hports q.1))]
        rfl
    · cases hq : x.requester with
      | none =>
        rw [State.endRetest_none hq]
        exact ⟨rfl, fun _ => hports, nofun⟩
      | some q =>
        rw [State.endRetest_some hq ((hreq q.1 q.2 hq).of_hpi (State.hpi_of_ports hports q.1))]
        refine ⟨rfl, nofun, fun p tag hpt => ?_⟩
        obtain rfl := Option.some.inj hpt
        have hkept (y : Port) : State.hpi { s.tested x with retest := none } y = s.hpi y :=
          State.hpi_of_ports hports y
        refine ⟨fun y hy => ?_, ?_⟩
        · rw [State.hpi_setHpi_ne _ _ hy.symm, hkept]
        · rw [State.hpi_setHpi_same, State.hpi_of_ports hports p]
          congr 1
          rw [State.stamp, State.tested_frame, State.stamp]

/-- Settles O45: the result is taken from the closed block, and then the next test begins or the operation ends. -/
theorem blockTestEnds : Obligations.BlockTestEnds := by
  refine ⟨fun s h => congrArg Host.Outcome.next (State.endTest_idle h), ?_,
    fun s b hsound => ⟨?_, fun d hd _ hflips => ?_⟩, fun s b w j ds hj hw hcell hds => ?_, fun v m j _ hj => lt_opsDone_iff v m hj⟩
  · intro s x hx hlaw hs hreq pass
    obtain ⟨rest, hr, -, -⟩ := hlaw.retired hx
    obtain ⟨-, -, -, hdist⟩ := hlaw x hx
    obtain ⟨hpass, hfail, hother⟩ := State.tested_pool (s := s) hr
    have hwords := State.tested_words hs fun d hd => (hdist d hd).1
    refine ⟨s.endTest, rfl, ?_⟩
    obtain ⟨hsame, hnext, hend⟩ := State.endTest_spec hx hlaw hreq
    obtain ⟨hf, hl, hdue⟩ := hsame.lists
    refine ⟨fun hp => ?_, fun hp => ?_, fun b hb => ?_, fun w => ?_, hnext, hend, hsame.frame⟩
    · rw [hsame.block, hf, hl, hdue, hr]
      exact hpass hp
    · rw [hsame.block, hf, hl, hdue, hr]
      exact hfail hp
    · rw [hsame.block]
      exact hother b hb
    · rw [(hsame.words w).1, (hsame.words w).2]
      exact hwords w
  · rw [State.blockTestPasses_eq_true]
    exact fun w hw => State.wordPasses_undisturbed (hsound w hw) nofun
  · rw [← State.wordPasses_oneUpset (hsound d.word hd) hflips, ← Bool.not_eq_true, ← Bool.not_eq_true, not_iff_not,
      State.blockTestPasses_eq_true]
    refine ⟨fun h => h d.word hd, fun h w hw => ?_⟩
    by_cases hword : d.word = w
    · rw [← hword]
      exact h
    · exact State.wordPasses_undisturbed (hsound w hw) fun e he => by rwa [List.mem_singleton.1 he]
  · rw [← Bool.not_eq_true, State.blockTestPasses_eq_true]
    exact fun h => absurd (h w hw) (by rw [State.wordPasses_stuck hj hcell hds]; exact Bool.false_ne_true)

end Sys2Proof.Machine

/-!
PROOFS. Ordered checks and refusals: the refusal each kind of request is settled with, the handle checks (R15), and CANCEL.
-/

namespace Sys2Proof.Machine

/-! ### Refusals -/

theorem firstFail_append (l l' : List (Bool × ResultCode)) :
    firstFail (l ++ l') = (firstFail l).or (firstFail l') := by
  induction l with
  | nil => rfl
  | cons c l ih =>
    obtain ⟨b, code⟩ := c
    cases b
    · exact ih
    · rfl

theorem firstFail_append_of_some {l : List (Bool × ResultCode)} {code : ResultCode} (h : firstFail l = some code)
    (l' : List (Bool × ResultCode)) : firstFail (l ++ l') = some code := by rw [firstFail_append, h]; rfl

theorem firstFail_append_of_none {l : List (Bool × ResultCode)} (h : firstFail l = none)
    (l' : List (Bool × ResultCode)) : firstFail (l ++ l') = firstFail l' := by rw [firstFail_append, h]; rfl

section
variable {s : State} {p : Port} {r : Request} {code : ResultCode}

theorem State.presents.exec {k : ReqKind} (h : s.presents k p r) {f : Request → Port → State → State} {c : Instr}
    (e : Machine.exec c s = .next (s.present k p f)) : Machine.exec c s = .next (f r p s) := by rw [e, h.present f]

theorem State.presents.exec_offer (h : s.presents .offer p r) : Machine.exec (.offer p) s = .next (settleOffer r p s) :=
  h.exec rfl

theorem State.presents.exec_close (h : s.presents .close p r) : Machine.exec (.close p) s = .next (settleClose r p s) :=
  h.exec rfl

theorem State.presents.exec_post (h : s.presents .post p r) : Machine.exec (.post p) s = .next (settlePost r p s) :=
  h.exec rfl

theorem State.presents.exec_take (h : s.presents .take p r) : Machine.exec (.take p) s = .next (settleTake r p s) :=
  h.exec rfl

theorem State.presents.exec_collect (h : s.presents .collect p r) :
    Machine.exec (.collect p) s = .next (settleCollect r p s) := h.exec rfl

theorem State.presents.exec_release (h : s.presents .release p r) :
    Machine.exec (.release p) s = .next (settleRelease r p s) := h.exec rfl

theorem State.presents.exec_return (h : s.presents .returnBuffer p r) :
    Machine.exec (.returnBuffer p) s = .next (settleReturn r p s) := h.exec rfl

theorem State.presents.exec_renew (h : s.presents .renew p r) : Machine.exec (.renew p) s = .next (settleRenew r p s) :=
  h.exec rfl

theorem State.presents.exec_cancel (h : s.presents .cancel p r) :
    Machine.exec (.cancel p) s = .next (settleCancel r p s) := h.exec rfl

theorem settleFree_refused (h : firstFail (s.handleChecks p r.handle (handleBad r.handle) [.filling, .collected]) = some code) :
    settleFree r p s = s.complete p r.tag code {} := by simp only [settleFree, h]

theorem settlePost_refused (h : firstFail (s.postChecks p r) = some code) :
    settlePost r p s = s.refuseOnChannel p r code := by simp only [settlePost, h]

theorem settleTake_refused (h : firstFail (s.takeChecks p r) = some code) :
    settleTake r p s = s.refuseOnChannel p r code := by simp only [settleTake, h]

theorem settleCollect_refused (h : firstFail (s.collectChecks p r) = some code) :
    settleCollect r p s = s.refuseOnChannel p r code := by simp only [settleCollect, h]

theorem settleOffer_refused (h : firstFail (s.offerChecks p r) = some code) :
    settleOffer r p s = s.refuseOnChannel p r code := by simp only [settleOffer, h]

theorem settleClose_refused (h : firstFail (s.closeChecks p r) = some code) :
    settleClose r p s = s.complete p r.tag code {} := by simp only [settleClose, h]

theorem settleRelease_refused (h : firstFail (s.giveUpChecks p r .roundTrip) = some code) :
    settleRelease r p s = s.complete p r.tag code {} := by simp only [settleRelease, h]

theorem settleReturn_refused (h : firstFail (s.returnChecks p r) = some code) :
    settleReturn r p s = s.complete p r.tag code {} := by simp only [settleReturn, h]

theorem settleRenew_refused (h : firstFail (s.handleChecks p r.handle (handleBad r.handle) [.held]) = some code) :
    settleRenew r p s = s.complete p r.tag code { v0 := r.handle } := by simp only [settleRenew, h]

/-- A refusal on a channel in range carries it (R43, R60, R66, R78). -/
theorem State.refuseOnChannel_inRange (h : r.channel.toNat < 16) :
    s.refuseOnChannel p r code = s.complete p r.tag code { channel := chanField r.chan } := by
  have hbad : r.channelBad = false := decide_eq_false (by omega)
  rw [State.refuseOnChannel, hbad]
  rfl

theorem State.refuseOnChannel_named {k : ChanIx} (h : r.channel.toNat = k.val) :
    s.refuseOnChannel p r code = s.complete p r.tag code { channel := BitVec.ofNat 4 k.val } := by
  rw [State.refuseOnChannel_inRange (by omega), Request.chan_of_eq h]
  rfl

/-- A refusal on a channel out of range carries a free value (assumption 5). -/
theorem State.refuseOnChannel_outOfRange (h : 16 ≤ r.channel.toNat) :
    s.refuseOnChannel p r code = s.drawn.complete p r.tag code { channel := s.freeValue.setWidth 4 } := by
  rw [State.refuseOnChannel, Request.channelBad_of_ge h]
  rfl

/-! ### The handle checks (R15) -/

/-- The states a kind of request accepts its handle's descriptor in, for the seven kinds that check a handle (R15). -/
def handleKinds : List (ReqKind × List DescState) :=
  [(.free, [.filling, .collected]), (.refill, [.collected]), (.post, [.filling]), (.release, [.held]),
    (.returnBuffer, [.held]), (.renew, [.held]), (.mapSlot, [.filling, .held, .collected])]

/-- Each of the seven kinds completes with the refusal of the handle check that fails. -/
theorem State.presents.handle_refused {k : ReqKind} {accepts : List DescState} (hk : (k, accepts) ∈ handleKinds)
    (h : s.presents k p r) (hpost : k = .post → r.channel.toNat < 16) (hmap : k = .mapSlot → r.slot.toNat < 8)
    (hfail : firstFail (s.handleChecks p r.handle (handleBad r.handle) accepts) = some code) :
    ∃ t v, Machine.exec (presentation k p) s = .next t ∧ s.onlyCompletes t p r code v := by
  suffices ∃ v, Machine.exec (presentation k p) s = .next (s.complete p r.tag code v) by
    obtain ⟨v, hv⟩ := this
    exact ⟨_, v, hv, h.onlyCompletes code v⟩
  simp only [handleKinds, List.mem_cons, Prod.mk.injEq, List.not_mem_nil, or_false] at hk
  rcases hk with ⟨rfl, rfl⟩ | ⟨rfl, rfl⟩ | ⟨rfl, rfl⟩ | ⟨rfl, rfl⟩ | ⟨rfl, rfl⟩ | ⟨rfl, rfl⟩ | ⟨rfl, rfl⟩
  · exact ⟨{}, h.exec_free.trans (congrArg _ (settleFree_refused hfail))⟩
  · exact ⟨{}, h.exec_refill.trans (congrArg _ (settleRefill_refused hfail))⟩
  · have hbad : r.channelBad = false := decide_eq_false (by have := hpost rfl; omega)
    have hchecks : firstFail (s.postChecks p r) = some code :=
      firstFail_append_of_some (by rw [hbad, Bool.or_false, hfail]) _
    have hrefuse := (settlePost_refused hchecks).trans (State.refuseOnChannel_inRange (hpost rfl))
    exact ⟨_, h.exec_post.trans (congrArg _ hrefuse)⟩
  · exact ⟨{}, h.exec_release.trans (congrArg _ (settleRelease_refused (firstFail_append_of_some hfail _)))⟩
  · have hchecks : firstFail (s.returnChecks p r) = some code :=
      firstFail_append_of_some (firstFail_append_of_some hfail _) _
    exact ⟨{}, h.exec_return.trans (congrArg _ (settleReturn_refused hchecks))⟩
  · exact ⟨_, h.exec_renew.trans (congrArg _ (settleRenew_refused hfail))⟩
  · have hbad : r.slotBad = false := decide_eq_false (by have := hmap rfl; omega)
    have hchecks : firstFail (s.mapChecks p r) = some code :=
      firstFail_append_of_some (by rw [hbad, Bool.or_false, hfail]) _
    exact ⟨_, h.exec_mapSlot.trans (congrArg _ (settleMap_refused hchecks))⟩

theorem State.stale_iff {h : Word} :
    s.stale h = true ↔
      (s.desc (handleIx h)).state = .free ∨ (s.desc (handleIx h)).generation ≠ h.extractLsb' 8 8 := by
  rw [State.stale, Bool.or_eq_true, beq_iff_eq, bne_iff_ne]
  rfl

end

/-- Settles O29: the first handle check that fails is the first check of the kind that fails. -/
theorem handleChecksInOrder : Obligations.HandleChecksInOrder := by
  intro s k p r accepts hk h hpost hmap i refused
  have hrefused (code : ResultCode) :
      firstFail (s.handleChecks p r.handle (handleBad r.handle) accepts) = some code → refused code :=
    h.handle_refused hk hpost hmap
  rw [State.firstFail_handleChecks, handleBad_eq] at hrefused
  split_ifs with hbad hstale hholder haccepts
  · exact hrefused _ (by rw [if_pos hbad])
  · exact hrefused _ (by rw [if_neg hbad, if_pos (State.stale_iff.2 hstale)])
  · exact hrefused _ (by rw [if_neg hbad, if_neg (mt State.stale_iff.1 hstale), if_pos hholder])
  · exact hrefused _ (by rw [if_neg hbad, if_neg (mt State.stale_iff.1 hstale), if_neg (not_not.2 (not_not.1 hholder)),
      if_pos haccepts])

/-! ### CANCEL (R146) -/

section
variable {s : State} {p : Port} {r : Request}

/-- The waiting request of another tag that a CANCEL names. -/
theorem State.cancelTarget_eq {e : Entry} (hn : ((s.hpi p).table.map (fun e => e.req.tag)).Nodup)
    (he : e ∈ (s.hpi p).table) (htag : e.req.tag.toNat = r.count.toNat) (hne : e.req.tag ≠ r.tag)
    (hw : e.state = .waiting) : s.cancelTarget p r = some e.req := by
  rw [State.cancelTarget]
  cases hf : (s.hpi p).table.find? (fun e => e.req.tag.toNat == r.count.toNat && e.state == .waiting
      && e.req.tag != r.tag) with
  | none =>
    have hno := List.find?_eq_none.1 hf e he
    simp [htag, hw, hne] at hno
  | some x =>
    have hx := List.find?_some hf
    have hmem := List.mem_of_find?_eq_some hf
    simp only [Bool.and_eq_true, beq_iff_eq] at hx
    have hsame : x.req.tag = e.req.tag := BitVec.eq_of_toNat_eq (hx.1.1.trans htag.symm)
    have hfind := find_tag_of_mem hn he
    rw [← hsame, find_tag_of_mem hn hmem] at hfind
    rw [Option.some.inj hfind]
    rfl

/-- Any request a CANCEL names is waiting, of another tag, and of the named tag. -/
theorem State.cancelTarget_spec {t : Request} (h : s.cancelTarget p r = some t) :
    ∃ e ∈ (s.hpi p).table, e.req = t ∧ e.req.tag.toNat = r.count.toNat ∧ e.state = .waiting ∧ e.req.tag ≠ r.tag := by
  obtain ⟨e, he, rfl⟩ := Option.map_eq_some_iff.1 h
  have hx := List.find?_some he
  simp only [Bool.and_eq_true, beq_iff_eq, bne_iff_ne] at hx
  exact ⟨e, List.mem_of_find?_eq_some he, rfl, hx.1.1, hx.1.2, hx.2⟩

theorem settleCancel_badCount (h : 255 < r.count.toNat) : settleCancel r p s = s.complete p r.tag .badRequest {} :=
  if_pos h

theorem settleCancel_notWaiting (h : r.count.toNat ≤ 255) (ht : ∀ t, s.cancelTarget p r = some t → t.kind = .offer) :
    settleCancel r p s = s.complete p r.tag .notWaiting {} := by
  rw [settleCancel, if_neg (by omega)]
  cases hc : s.cancelTarget p r with
  | none => rfl
  | some t => simp only [ht t hc]

/-- The two completions of a CANCEL that takes its target out of its list. -/
theorem State.cancelDone_eq {k : ReqKind} {u : State} {target : Tag} (hk : k ≠ .cancel)
    (htarget : u.hasRequest p target k) (hown : u.hasRequest p r.tag .cancel) (v : Vals) :
    u.cancelDone p r target v = u.setHpi p (((u.hpi p).afterCompletion target k .cancelled v u.stamp).afterCompletion
      r.tag .cancel .done { v0 := BitVec.ofNat 16 target.toNat } u.stamp) :=
  State.complete_complete_same hk htarget hown .cancelled .done v _

theorem settleCancel_allocate {t : Request} (hcount : r.count.toNat ≤ 255) (ht : s.cancelTarget p r = some t)
    (hk : t.kind = .allocate) (h : ∃ x ∈ s.allocWaits, x.port = p ∧ x.tag = t.tag) :
    settleCancel r p s = (s.dropAllocWait p t.tag).cancelDone p r t.tag {} := by
  have hany : s.allocWaits.any (AllocWait.isOf p t.tag) = true := by
    rw [AllocWait.isOf_eq]
    obtain ⟨x, hx, hp⟩ := h
    exact List.any_eq_true.2 ⟨x, hx, decide_eq_true hp⟩
  rw [settleCancel, if_neg (by omega), ht]
  simp only [hk, hany, if_true]

theorem settleCancel_take {t : Request} {a : Active} (hcount : r.count.toNat ≤ 255)
    (ht : s.cancelTarget p r = some t) (hk : t.kind = .take) (hc : s.chan t.chan = .active a)
    (hp : a.params.consumer = p) (h : ∃ w ∈ a.takeWaits, w.tag = t.tag) :
    settleCancel r p s = (s.setChan t.chan (.active { a with
      takeWaits := a.takeWaits.eraseP (fun w => w.tag == t.tag) })).cancelDone p r t.tag
        { channel := BitVec.ofNat 4 t.chan.val } := by
  have hany : a.takeWaits.any (fun w => w.tag == t.tag) = true := by simpa using h
  rw [settleCancel, if_neg (by omega), ht]
  simp only [hk, hc, Chan.active?, hp, hany, and_self, if_true]
  rfl

theorem settleCancel_collect {t : Request} {a : Active} (hcount : r.count.toNat ≤ 255)
    (ht : s.cancelTarget p r = some t) (hk : t.kind = .collect) (hc : s.chan t.chan = .active a)
    (hp : a.params.producer = p) (h : ∃ w ∈ a.collectWaits, w.tag = t.tag) :
    settleCancel r p s = (s.setChan t.chan (.active { a with
      collectWaits := a.collectWaits.eraseP (fun w => w.tag == t.tag) })).cancelDone p r t.tag
        { channel := BitVec.ofNat 4 t.chan.val } := by
  have hany : a.collectWaits.any (fun w => w.tag == t.tag) = true := by simpa using h
  rw [settleCancel, if_neg (by omega), ht]
  simp only [hk, hc, Chan.active?, hp, hany, and_self, if_true]
  rfl

end

/-- Settles O31: the target is the one waiting request of the named tag, and its kind says which list it leaves. -/
theorem cancelRemovesTheTarget : Obligations.CancelRemovesTheTarget := by
  intro s p r h
  refine ⟨fun hbad => ?_, fun hno hcount => ?_, ?_⟩
  · exact h.completes (h.exec_cancel.trans (congrArg _ (settleCancel_badCount hbad)))
  · refine h.completes (h.exec_cancel.trans (congrArg _ (settleCancel_notWaiting hcount fun t ht => ?_)))
    obtain ⟨e, he, rfl, htag, hw, hne⟩ := State.cancelTarget_spec ht
    exact ((hno e he htag).resolve_left hne).resolve_left (not_not.2 hw)
  · intro e he htag hne hw both own
    have hcount : r.count.toNat ≤ 255 := by have := e.req.tag.isLt; omega
    have ht := State.cancelTarget_eq h.2.2.2 he htag hne hw
    have htarget : s.hasRequest p e.req.tag e.req.kind := ⟨⟨e, he, rfl, rfl⟩, h.2.2.2⟩
    refine ⟨fun hk hx => ?_, fun a hc hk hp hx => ?_, fun a hc hk hp hx => ?_⟩
    · rw [h.exec_cancel, settleCancel_allocate hcount ht hk hx, s.dropAllocWait_eq]
      refine congrArg _ ((State.cancelDone_eq (k := e.req.kind) (by rw [hk]; exact nofun) ?_ ?_ _).trans rfl)
      · exact htarget
      · exact h.hasRequest
    · rw [h.exec_cancel, settleCancel_take hcount ht hk hc hp hx]
      refine congrArg _ ((State.cancelDone_eq (k := e.req.kind) (by rw [hk]; exact nofun) ?_ ?_ _).trans rfl)
      · exact htarget
      · exact h.hasRequest
    · rw [h.exec_cancel, settleCancel_collect hcount ht hk hc hp hx]
      refine congrArg _ ((State.cancelDone_eq (k := e.req.kind) (by rw [hk]; exact nofun) ?_ ?_ _).trans rfl)
      · exact htarget
      · exact h.hasRequest

end Sys2Proof.Machine

/-!
PROOFS. A refused request changes nothing else (R140). What a presentation writes to its own port is either the completion
of the request alone, or records none of which is a refusal.
-/

namespace Sys2Proof.Machine

/-! ### Records that are no refusals -/

/-- The record is a completion with a refusal (R145). -/
def EventRecord.refuses : EventRecord → Prop
  | .completion code _ _ _ _ => code.isOutcome = false
  | .notice _ _ _ | .summary _ _ _ => False

/-- From `s` to `t` the event queue of `p` has grown by records that are no refusals. -/
def State.reports (s t : State) (p : Port) : Prop :=
  ∃ l, (t.hpi p).queue = (s.hpi p).queue ++ l ∧ ∀ x ∈ l, ¬x.refuses

section
variable {s t u : State} {p q : Port}

theorem State.reports_of_queue (h : (t.hpi p).queue = (s.hpi p).queue) : s.reports t p :=
  ⟨[], by rw [h, List.append_nil], fun _ hx => absurd hx List.not_mem_nil⟩

theorem State.reports_refl : s.reports s p := State.reports_of_queue rfl

theorem State.reports_of_ports (h : t.ports = s.ports) : s.reports t p :=
  State.reports_of_queue (by rw [State.hpi_of_ports h])

theorem State.reports.trans (h : s.reports t p) (g : t.reports u p) : s.reports u p := by
  obtain ⟨l, hl, hn⟩ := h
  obtain ⟨m, hm, hn'⟩ := g
  refine ⟨l ++ m, by rw [hm, hl, List.append_assoc], fun x hx => ?_⟩
  exact (List.mem_append.1 hx).elim (hn x) (hn' x)

theorem State.reports_foldl {α : Type} {f : State → α → State} (hf : ∀ (s : State) (x : α), s.reports (f s x) p)
    (l : List α) (s : State) : s.reports (l.foldl f s) p := by
  induction l generalizing s with
  | nil => exact State.reports_refl
  | cons x l ih => exact (hf s x).trans (ih _)

theorem State.reports_setHpi {h : Hpi} {l : List EventRecord} (hq : h.queue = (s.hpi q).queue ++ l)
    (hl : ∀ x ∈ l, ¬x.refuses) : s.reports (s.setHpi q h) p := by
  by_cases hqp : q = p
  · subst hqp
    exact ⟨l, by rw [State.hpi_setHpi_same, hq], hl⟩
  · exact State.reports_of_queue (by rw [State.hpi_setHpi_ne _ _ hqp])

theorem State.reports_setHpi_silent {h : Hpi} (hq : h.queue = (s.hpi q).queue) : s.reports (s.setHpi q h) p :=
  State.reports_setHpi (hq.trans (List.append_nil _).symm) fun _ hx => absurd hx List.not_mem_nil

/-! ### The shared operations -/

theorem State.reports_complete {code : ResultCode} (h : code.isOutcome = true) (tag : Tag) (v : Vals) :
    s.reports (s.complete q tag code v) p := by
  unfold State.complete
  split
  · exact State.reports_refl
  · refine State.reports_setHpi rfl fun x hx => ?_
    rw [List.mem_singleton.1 hx, EventRecord.refuses, h]
    exact Bool.false_ne_true ∘ Eq.symm

theorem State.reports_notice (k : NoticeKind) (v : Vals) : s.reports (s.notice q k v) p := by
  unfold State.notice
  dsimp only
  split_ifs
  · exact State.reports_setHpi rfl fun x hx => by rw [List.mem_singleton.1 hx]; exact id
  · exact State.reports_setHpi_silent rfl
  · exact State.reports_refl

theorem State.reports_leaveOutstanding (tag : Tag) (x : EntryState) : s.reports (s.leaveOutstanding q tag x) p :=
  State.reports_setHpi_silent rfl

theorem State.reports_setSlot (k : Fin 8) (x : Option Word) : s.reports (s.setSlot q k x) p :=
  State.reports_setHpi_silent rfl

theorem State.reports_completeAll {code : ResultCode} (h : code.isOutcome = true) (ws : List Wait) (v : Vals) :
    s.reports (s.completeAll q ws code v) p :=
  State.reports_foldl (f := fun s (w : Wait) => s.complete q w.tag code v) (fun _ w => State.reports_complete h w.tag v) ws s

theorem State.reports_freeDesc (i : DescIx) : s.reports (s.freeDesc i) p := State.reports_of_ports (s.freeDesc_ports i)

theorem State.reports_setChan (c : ChanIx) (x : Chan) : s.reports (s.setChan c x) p := State.reports_of_ports rfl

theorem State.reports_setLife (i : DescIx) (l : Life) : s.reports (s.setLife i l) p := State.reports_of_ports rfl

theorem State.reports_setQuota (x : Port) (n : Nat) : s.reports (s.setQuota x n) p := State.reports_of_ports rfl

theorem State.reports_satisfy (tag : Tag) (n : Nat) (i : DescIx) : s.reports (s.satisfy q tag n i) p :=
  (State.reports_of_ports (s.allocTo_ports q n i)).trans (State.reports_complete rfl ..)

theorem State.reports_deliver (m : ChanParams) (tag : Tag) (i : DescIx) (b : Buf) (t : Traffic) :
    s.reports (s.deliver m tag i b t) p := (State.reports_setLife ..).trans (State.reports_complete rfl ..)

theorem State.reports_arrive (c : ChanIx) (i : DescIx) (b : Buf) (t : Traffic) (r : Came) :
    s.reports (s.arrive c i b t r) p := by
  unfold State.arrive
  split
  · exact State.reports_refl
  · split
    · exact ((State.reports_setChan ..).trans (State.reports_setLife ..)).trans (State.reports_complete rfl ..)
    · exact (State.reports_setChan ..).trans (State.reports_setLife ..)

theorem State.reports_noticeReturns (c : ChanIx) (e : Bool) : s.reports (s.noticeReturns c e) p := by
  unfold State.noticeReturns
  split
  · exact State.reports_refl
  · split_ifs
    · exact State.reports_notice ..
    · exact State.reports_refl

theorem State.reports_comeBack (i : DescIx) (b : Buf) (t : Traffic) (r : Came) : s.reports (s.comeBack i b t r) p :=
  (State.reports_arrive ..).trans (State.reports_noticeReturns ..)

theorem State.reports_unbind (c : ChanIx) : s.reports (s.unbind c) p := by
  unfold State.unbind
  split
  · exact State.reports_refl
  · exact (((State.reports_completeAll rfl ..).trans (State.reports_setChan ..)).trans (State.reports_notice ..)).trans
      (State.reports_notice ..)

theorem State.reports_unbindIfDrained (c : ChanIx) : s.reports (s.unbindIfDrained c) p := by
  unfold State.unbindIfDrained
  split_ifs
  · exact State.reports_unbind c
  · exact State.reports_refl

theorem State.reports_bounceOne (c : ChanIx) (s : State) (i : DescIx) : s.reports (State.bounceOne c s i) p := by
  unfold State.bounceOne
  split
  · exact State.reports_arrive ..
  all_goals exact State.reports_refl

theorem State.reports_producerClose (c : ChanIx) : s.reports (s.producerClose c) p := by
  unfold State.producerClose
  split
  · exact State.reports_refl
  · exact (State.reports_setChan ..).trans (State.reports_completeAll rfl ..)

theorem State.reports_consumerClose (c : ChanIx) : s.reports (s.consumerClose c) p := by
  unfold State.consumerClose
  split
  · exact State.reports_refl
  next a _ =>
    have hwaits : s.reports ((s.setChan c (.active { a with takeWaits := [], forward := [] })).completeAll
        a.params.consumer a.takeWaits .closed { channel := chanField c }) p :=
      (State.reports_setChan ..).trans (State.reports_completeAll rfl ..)
    have hfree := hwaits.trans (State.reports_foldl (fun u i => State.reports_freeDesc i) a.forward _)
    have hbounce := hwaits.trans (State.reports_foldl (State.reports_bounceOne c) a.forward _)
    dsimp only
    split
    · split
      · exact hfree
      · exact hfree.trans (State.reports_notice ..)
    · split
      · exact hbounce.trans (State.reports_noticeReturns ..)
      · exact hfree

theorem State.reports_closeBy (q : Port) (c : ChanIx) : s.reports (s.closeBy q c) p := by
  unfold State.closeBy
  split
  · exact State.reports_refl
  · split_ifs
    · exact (State.reports_setChan ..).trans (State.reports_producerClose c)
    · exact (State.reports_setChan ..).trans (State.reports_consumerClose c)

theorem State.reports_cancelDone (r : Request) (target : Tag) (v : Vals) : s.reports (s.cancelDone q r target v) p :=
  (State.reports_complete rfl ..).trans (State.reports_complete rfl ..)

end

/-! ### The presentations -/

/-- What a presentation of `r` by `p` makes of the state: the completion of `r` alone, or reports that refuse nothing. -/
def State.answers (s t : State) (p : Port) (r : Request) : Prop :=
  (∃ u code v, (u = s ∨ u = s.drawn) ∧ t = u.complete p r.tag code v) ∨ s.reports t p

section
variable {s : State} {p : Port} {r : Request}

theorem State.answers_complete (code : ResultCode) (v : Vals) : s.answers (s.complete p r.tag code v) p r :=
  .inl ⟨s, code, v, .inl rfl, rfl⟩

theorem State.answers_drawn (code : ResultCode) (v : Vals) : s.answers (s.drawn.complete p r.tag code v) p r :=
  .inl ⟨s.drawn, code, v, .inr rfl, rfl⟩

theorem State.answers_refuseOnChannel (code : ResultCode) : s.answers (s.refuseOnChannel p r code) p r := by
  unfold State.refuseOnChannel
  split
  · exact State.answers_drawn ..
  · exact State.answers_complete ..

theorem answers_settleCancel : s.answers (settleCancel r p s) p r := by
  unfold settleCancel
  split
  · exact State.answers_complete ..
  · split
    · exact State.answers_complete ..
    · dsimp only
      split
      · split
        · exact .inr ((State.reports_of_ports (s.dropAllocWait_ports ..)).trans (State.reports_cancelDone ..))
        · exact State.answers_complete ..
      · split
        · exact .inr ((State.reports_setChan ..).trans (State.reports_cancelDone ..))
        · exact State.answers_complete ..
      · split
        · exact .inr ((State.reports_setChan ..).trans (State.reports_cancelDone ..))
        · exact State.answers_complete ..
      · exact State.answers_complete ..

theorem answers_settleAllocate : s.answers (settleAllocate r p s) p r := by
  unfold settleAllocate
  split
  · exact State.answers_complete ..
  · split
    · exact .inr (State.reports_satisfy ..)
    · split
      · exact State.answers_complete ..
      · exact .inr (State.reports.trans (t := { s with
          allocWaits := s.allocWaits ++ [⟨p, r.tag, r.count.toNat, waitTimer r.limit⟩] }) (State.reports_of_ports rfl)
          (State.reports_leaveOutstanding ..))

theorem answers_settleFree : s.answers (settleFree r p s) p r := by
  unfold settleFree
  split
  · exact State.answers_complete ..
  · exact .inr ((State.reports_freeDesc _).trans (State.reports_complete rfl ..))

theorem answers_settleRefill : s.answers (settleRefill r p s) p r := by
  unfold settleRefill
  dsimp only
  split
  · exact .inr ((State.reports_setLife ..).trans (State.reports_complete rfl ..))
  all_goals exact State.answers_complete ..

theorem answers_settleGrant : s.answers (settleGrant r p s) p r := by
  unfold settleGrant
  split
  · exact .inr ((((State.reports_setQuota ..).trans (State.reports_setQuota ..)).trans (State.reports_notice ..)).trans
      (State.reports_complete rfl ..))
  all_goals exact State.answers_complete ..

theorem answers_settleRetest : s.answers (settleRetest r p s) p r := by
  unfold settleRetest
  split
  · exact State.answers_complete ..
  · exact State.answers_complete ..
  next b rest _ _ =>
    exact .inr (State.reports.trans (t := { s with
      retest := some ⟨some (p, r.tag), rest.length + 1, rest.length + 1, 0, b, []⟩ }) (State.reports_of_ports rfl)
      (State.reports_leaveOutstanding ..))

theorem answers_settleOffer : s.answers (settleOffer r p s) p r := by
  unfold settleOffer
  split
  · exact .inr (((State.reports_setChan ..).trans (State.reports_notice ..)).trans (State.reports_leaveOutstanding ..))
  all_goals exact State.answers_refuseOnChannel ..

theorem answers_settleWithdraw : s.answers (settleWithdraw r p s) p r := by
  unfold settleWithdraw
  split
  · exact State.answers_complete ..
  · split
    · split
      · exact .inr ((((State.reports_setChan ..).trans (State.reports_complete rfl ..)).trans
          (State.reports_complete rfl ..)).trans (State.reports_notice ..))
      · exact State.answers_complete ..
    all_goals exact State.answers_complete ..

theorem answers_settleAccept : s.answers (settleAccept r p s) p r := by
  unfold settleAccept
  split
  · exact State.answers_complete ..
  · split
    · split
      · exact .inr (((State.reports_setChan ..).trans (State.reports_complete rfl ..)).trans
          (State.reports_complete rfl ..))
      · exact State.answers_complete ..
    all_goals exact State.answers_complete ..

theorem answers_settleReject : s.answers (settleReject r p s) p r := by
  unfold settleReject
  split
  · exact State.answers_complete ..
  · split
    · split
      · exact .inr (((State.reports_setChan ..).trans (State.reports_complete rfl ..)).trans
          (State.reports_complete rfl ..))
      · exact State.answers_complete ..
    all_goals exact State.answers_complete ..

theorem answers_settleClose : s.answers (settleClose r p s) p r := by
  unfold settleClose
  dsimp only
  split
  · exact State.answers_complete ..
  · exact State.answers_complete ..
  · split
    · exact State.answers_complete ..
    · have hclose {v : Vals} : s.reports ((s.closeBy p r.chan).complete p r.tag .done v) p :=
        (State.reports_closeBy p r.chan).trans (State.reports_complete rfl ..)
      split
      · exact .inr (hclose.trans (State.reports_unbind _))
      · exact .inr (hclose.trans (State.reports_notice ..))

theorem answers_settleQueryChannel : s.answers (settleQueryChannel r p s) p r := by
  unfold settleQueryChannel
  split <;> exact State.answers_complete ..

theorem State.reports_postBuffer (i : DescIx) (b : Buf) (a : Active) : s.reports (s.postBuffer p r i b a) p := by
  unfold State.postBuffer
  dsimp only
  split
  · exact ((State.reports_setChan ..).trans (State.reports_deliver ..)).trans (State.reports_complete rfl ..)
  · have hqueued := (State.reports_setChan (s := s) (p := p) r.chan (.active { a with
      nextSequence := a.nextSequence + 1#16, forward := a.forward ++ [i] })).trans
        (State.reports_setLife i (.queued b (postedTraffic r a.nextSequence)))
    split
    · exact (hqueued.trans (State.reports_notice ..)).trans (State.reports_complete rfl ..)
    · exact hqueued.trans (State.reports_complete rfl ..)

theorem answers_settlePost : s.answers (settlePost r p s) p r := by
  unfold settlePost
  split
  · exact .inr (State.reports_postBuffer ..)
  all_goals exact State.answers_refuseOnChannel ..

theorem answers_settleTake : s.answers (settleTake r p s) p r := by
  unfold settleTake
  split
  · exact State.answers_refuseOnChannel ..
  · exact State.answers_refuseOnChannel ..
  · split
    · unfold State.takeEmpty
      split_ifs
      · exact State.answers_complete ..
      · exact State.answers_complete ..
      · exact .inr ((State.reports_setChan ..).trans (State.reports_leaveOutstanding ..))
    · split
      · exact .inr ((State.reports_setChan ..).trans (State.reports_deliver ..))
      all_goals exact .inr State.reports_refl

theorem answers_settleCollect : s.answers (settleCollect r p s) p r := by
  unfold settleCollect
  split
  · exact State.answers_refuseOnChannel ..
  · exact State.answers_refuseOnChannel ..
  · split
    · unfold State.collectHead
      split
      · exact .inr ((((State.reports_setChan ..).trans (State.reports_setLife ..)).trans
          (State.reports_complete rfl ..)).trans (State.reports_unbindIfDrained _))
      all_goals exact .inr State.reports_refl
    · split
      · exact State.answers_complete ..
      · exact .inr ((State.reports_setChan ..).trans (State.reports_leaveOutstanding ..))

theorem answers_settleRelease : s.answers (settleRelease r p s) p r := by
  unfold settleRelease
  split
  · exact .inr (((State.reports_freeDesc _).trans (State.reports_complete rfl ..)).trans
      (State.reports_unbindIfDrained _))
  all_goals exact State.answers_complete ..

theorem answers_settleReturn : s.answers (settleReturn r p s) p r := by
  unfold settleReturn
  split
  · unfold State.giveBack
    dsimp only
    refine .inr (State.reports.trans ?_ (State.reports_unbindIfDrained _))
    split
    · exact (State.reports_freeDesc _).trans (State.reports_complete rfl ..)
    · exact (State.reports_comeBack ..).trans (State.reports_complete rfl ..)
  all_goals exact State.answers_complete ..

theorem answers_settleRenew : s.answers (settleRenew r p s) p r := by
  unfold settleRenew
  dsimp only
  split
  · split
    · exact State.answers_complete ..
    · split
      · exact .inr ((State.reports_setLife ..).trans (State.reports_complete rfl ..))
      · unfold State.renewRefused
        split
        · exact State.answers_complete ..
        · exact State.answers_drawn ..
        · exact State.answers_complete ..
  all_goals exact State.answers_complete ..

theorem answers_settleMap : s.answers (settleMap r p s) p r := by
  unfold settleMap
  dsimp only
  split
  · exact State.answers_complete ..
  · exact .inr ((State.reports_setSlot ..).trans (State.reports_complete rfl ..))

theorem answers_settleUnmap : s.answers (settleUnmap r p s) p r := by
  unfold settleUnmap
  split
  · exact State.answers_complete ..
  · split
    · exact State.answers_complete ..
    · exact .inr ((State.reports_setSlot ..).trans (State.reports_complete rfl ..))

/-- A reclaim start leaves its port's event queue empty (R164). -/
theorem State.reclaimStart_queue (s : State) (p : Port) : ((s.reclaimStart p).hpi p).queue = [] := by
  have hkept : (s.dropHoldings p).keepsPorts (s.reclaimStart p) :=
    (Calm.foldl (calm_reclaimChannel p) (List.finRange 16) (s.dropHoldings p)).keepsPorts
  have hstate : ((s.reclaimStart p).hpi p).controls = ((s.dropHoldings p).hpi p).controls :=
    State.foldl_controls (fun _ c => State.reclaimChannel_controls _ c _ p) _ _
  have hdropped := s.dropHoldings_hpi p p
  rw [if_pos rfl] at hdropped
  have hlaw := Hpi.law_of_bare (Hpi.bare_reset (.reclaiming 0) (s.hpi p).resetIn (s.hpi p).tickLatch (s.hpi p).dataOut)
  rw [← hdropped] at hlaw
  obtain ⟨-, -, hbare, -⟩ := ((hkept.hpis p).laws hlaw.1 hlaw.2).1
  have hreclaiming : ((s.reclaimStart p).hpi p).state = .reclaiming 0 := by
    rw [show ((s.reclaimStart p).hpi p).state = ((s.dropHoldings p).hpi p).state from congrArg (·.1) hstate, hdropped]
  obtain ⟨-, hqueue, -⟩ := hbare (by rw [hreclaiming]; exact nofun)
  exact hqueue

/-- Every presentation but DETACH's answers its request. -/
theorem State.presents.answers {k : ReqKind} (h : s.presents k p r) (hk : k ≠ .detach) {t : State}
    (he : Machine.exec (presentation k p) s = .next t) : s.answers t p r := by
  have hsettle {f : Request → Port → State → State} (e : Machine.exec (presentation k p) s = .next (s.present k p f))
      (hf : s.answers (f r p s) p r) : s.answers t p r := by
    rw [h.exec e] at he
    exact Host.Outcome.next.inj he ▸ hf
  cases k with
  | detach => exact absurd rfl hk
  | attach =>
    refine hsettle (f := settleAttach) (congrArg _ (if_neg ?_)) (State.answers_complete ..)
    rw [State.online_iff.1 h.1]
    exact nofun
  | cancel => exact hsettle rfl answers_settleCancel
  | allocate => exact hsettle rfl answers_settleAllocate
  | free => exact hsettle rfl answers_settleFree
  | refill => exact hsettle rfl answers_settleRefill
  | grant => exact hsettle rfl answers_settleGrant
  | retest => exact hsettle rfl answers_settleRetest
  | queryPool => exact hsettle (f := settleQueryPool) rfl (State.answers_complete ..)
  | offer => exact hsettle rfl answers_settleOffer
  | withdraw => exact hsettle rfl answers_settleWithdraw
  | accept => exact hsettle rfl answers_settleAccept
  | reject => exact hsettle rfl answers_settleReject
  | close => exact hsettle rfl answers_settleClose
  | post => exact hsettle rfl answers_settlePost
  | take => exact hsettle rfl answers_settleTake
  | collect => exact hsettle rfl answers_settleCollect
  | release => exact hsettle rfl answers_settleRelease
  | returnBuffer => exact hsettle rfl answers_settleReturn
  | renew => exact hsettle rfl answers_settleRenew
  | queryChannel => exact hsettle rfl answers_settleQueryChannel
  | mapSlot => exact hsettle rfl answers_settleMap
  | unmapSlot => exact hsettle rfl answers_settleUnmap

end

/-- Settles O30: a presentation whose new record is a refusal wrote that completion and nothing else. -/
theorem refusalChangesNothingElse : Obligations.RefusalChangesNothingElse := by
  intro s t k p r code v h he hcode hqueue
  have hk : k ≠ .detach := by
    rintro rfl
    have hstart : t = s.reclaimStart p := (Host.Outcome.next.inj ((h.exec (f := settleDetach) rfl).symm.trans he)).symm
    rw [hstart, s.reclaimStart_queue] at hqueue
    simp at hqueue
  rcases h.answers hk he with ⟨u, code', v', hu, rfl⟩ | ⟨l, hl, hno⟩
  · have hcomplete : u.complete p r.tag code' v' =
        u.setHpi p ((s.hpi p).afterCompletion r.tag k code' v' s.stamp) := by
      rcases hu with rfl | rfl
      · exact State.complete_eq u p r.tag k code' v' h.hasRequest
      · exact State.complete_eq s.drawn p r.tag k code' v' h.hasRequest
    rw [hcomplete, State.hpi_setHpi_same] at hqueue
    obtain ⟨rfl, -, -, rfl, -⟩ := EventRecord.completion.inj (List.singleton_inj.1 (List.append_cancel_left hqueue))
    rw [hcomplete, State.hpi_setHpi_same]
    refine ⟨rfl, fun q hq => ?_, ?_⟩
    · rw [State.hpi_setHpi_ne _ _ hq.symm]
      rcases hu with rfl | rfl <;> rfl
    · rcases hu with rfl | rfl <;> rfl
  · rw [hl] at hqueue
    refine absurd (hno (.completion code r.tag k v s.stamp) ?_) (not_not.2 hcode)
    rw [List.append_cancel_left hqueue]
    exact List.mem_singleton.2 rfl

end Sys2Proof.Machine

/-!
PROOFS. The layout of the event records, of the values they carry, and of the fault capture words (R176, R178).
-/

namespace Sys2Proof.Machine

/-! ### Codes fit their fields -/

theorem resultCode_mod (x : ResultCode) : resultCode x % 64 = resultCode x := by cases x <;> rfl

theorem kindCode_mod (x : ReqKind) : kindCode x % 32 = kindCode x := by cases x <;> rfl

theorem noticeCode_mod (x : NoticeKind) : noticeCode x % 64 = noticeCode x := by cases x <;> rfl

theorem outcomeCode_mod (x : BufOutcome) : outcomeCode x % 4 = outcomeCode x := by cases x <;> rfl

theorem faultCode_mod (x : FaultKind) : faultCode x % 8 = faultCode x := by cases x <;> rfl

theorem directionCode_eq_flag (x : Direction) : directionCode x = flag (x == .write) := by cases x <;> rfl

/-- A field that holds a bit vector of its own width. -/
theorem field_extract_bits {lsb width : Nat} (x : BitVec width) (h : lsb + width ≤ 16) :
    (field lsb width x.toNat).extractLsb' lsb width = x :=
  BitVec.eq_of_toNat_eq (by rw [field_extract_same _ h, Nat.mod_eq_of_lt x.isLt])

/-- A field at bit 0 is its value, cut to its width. -/
theorem field_toNat {width : Nat} (v : Nat) (h : width ≤ 16) : (field 0 width v).toNat = v % 2 ^ width := by
  have hlt : v % 2 ^ width < 2 ^ 16 :=
    lt_of_lt_of_le (Nat.mod_lt _ (by positivity)) (Nat.pow_le_pow_right (by decide) h)
  rw [field, BitVec.toNat_ofNat, pow_zero, Nat.mul_one, Nat.mod_eq_of_lt hlt]

/-! ### The records -/

theorem recordWord1_bits (kind : ReqKind) (v : Vals) (hb : v.blockCount ≤ 16) :
    ((recordWord1 (kindCode kind) v).extractLsb' 0 5).toNat = kindCode kind ∧
      (recordWord1 (kindCode kind) v).extractLsb' 5 4 = v.channel ∧
      (recordWord1 (kindCode kind) v).getLsbD 9 = false ∧
      ((recordWord1 (kindCode kind) v).extractLsb' 10 5).toNat = v.blockCount ∧
      (recordWord1 (kindCode kind) v).getLsbD 15 = v.damaged := by
  have hcount : v.blockCount % 2 ^ 5 = v.blockCount := Nat.mod_eq_of_lt (by omega)
  simp only [recordWord1, BitVec.extractLsb'_or, BitVec.getLsbD_or]
  simp (disch := omega) only [field_extract_same, field_extract_bits, field_extract_outside, field_flag_getLsbD,
    field_getLsbD_outside, BitVec.or_zero, BitVec.zero_or, Bool.or_false, Bool.false_or, hcount]
  simp only [Nat.reducePow, kindCode_mod, and_self]

theorem completionWord0_bits (code : ResultCode) (tag : Tag) :
    let w := field 0 2 1 ||| field 2 6 (resultCode code) ||| field 8 8 tag.toNat
    (w.extractLsb' 0 2).toNat = 1 ∧ (w.extractLsb' 2 6).toNat = resultCode code ∧ w.extractLsb' 8 8 = tag := by
  simp only [BitVec.extractLsb'_or]
  simp (disch := omega) only [field_extract_same, field_extract_bits, field_extract_outside, BitVec.or_zero,
    BitVec.zero_or]
  simp only [Nat.reducePow, Nat.reduceMod, resultCode_mod, and_self]

theorem noticeWord0_bits (k : NoticeKind) :
    let w := field 0 2 2 ||| field 2 6 (noticeCode k)
    (w.extractLsb' 0 2).toNat = 2 ∧ (w.extractLsb' 2 6).toNat = noticeCode k ∧ w.extractLsb' 8 8 = 0#8 := by
  simp only [BitVec.extractLsb'_or]
  simp (disch := omega) only [field_extract_same, field_extract_outside, BitVec.or_zero, BitVec.zero_or]
  simp only [Nat.reducePow, Nat.reduceMod, noticeCode_mod, and_self]

theorem summary_words (kinds : BitVec 11) (channels : BitVec 16) (stamp : Word) :
    (EventRecord.summary kinds channels stamp).words =
      [3#16, 0#16, stamp, channels, 0#5 ++ kinds, 0#16, 0#16, 0#16] := by
  have hkinds : kinds.setWidth 16 = 0#5 ++ kinds := by
    apply BitVec.eq_of_getLsbD_eq
    intro i hi
    rw [BitVec.getLsbD_append, BitVec.getLsbD_setWidth]
    split_ifs with h
    · simp [hi]
    · simp [BitVec.getLsbD_of_ge kinds i (by omega)]
  rw [EventRecord.words, hkinds]
  rfl

/-! ### The window words of the head record and of the fault capture -/

section
variable {s : State} {p : Port}

theorem windowWord_head {k : Nat} (h : k < 8) : windowWord (BitVec.ofNat 15 (0x4010 + k)) = .head k := by
  have hval : (BitVec.ofNat 15 (0x4010 + k)).toNat = 0x4010 + k := by
    rw [BitVec.toNat_ofNat, Nat.mod_eq_of_lt (by omega)]
  have h0 : ¬0x4010 + k < 0x4000 := by omega
  have h8 : ¬0x4010 + k - 0x4000 < 8 := by omega
  have hsubmit : ¬0x4010 + k = 0x4008 := by omega
  have hhead : 0x4010 ≤ 0x4010 + k ∧ 0x4010 + k ≤ 0x4017 := by omega
  simp only [windowWord, hval]
  rw [if_neg h0, dif_neg h8, if_neg hsubmit, if_pos hhead, Nat.add_sub_cancel_left]

theorem State.plainRead_head (h : s.busTaken p = true) {k : Nat} (hk : k < 8) :
    s.plainRead p (BitVec.ofNat 15 (0x4010 + k)) = some (s.headWord p k) := by
  rw [State.plainRead, h, windowWord_head hk]
  rfl

theorem State.plainRead_capture (h : s.busTaken p = true) :
    s.plainRead p 0x4022#15 = some (s.captureWord0 p) ∧ s.plainRead p 0x4023#15 = some (s.captureWord1 p) ∧
      s.plainRead p 0x4024#15 = some (s.captureWord2 p) := by
  have h0 : windowWord 0x4022#15 = .capture0 := by simp [windowWord]
  have h1 : windowWord 0x4023#15 = .capture1 := by simp [windowWord]
  have h2 : windowWord 0x4024#15 = .capture2 := by simp [windowWord]
  simp only [State.plainRead, h, h0, h1, h2, Bool.not_true, Bool.false_eq_true, if_false, and_self]

theorem captureWord0_bits (r : Capture) :
    let w := field 15 1 1 ||| field 14 1 (flag r.more) ||| field 8 1 (directionCode r.direction) |||
      field 0 3 (faultCode r.kind)
    w.getLsbD 15 = true ∧ w.getLsbD 14 = r.more ∧ w.extractLsb' 9 5 = 0#5 ∧
      (w.getLsbD 8 = true ↔ r.direction = .write) ∧ w.extractLsb' 3 5 = 0#5 ∧
      (w.extractLsb' 0 3).toNat = faultCode r.kind := by
  have hone : field 15 1 1 = field 15 1 (flag true) := rfl
  simp only [hone, directionCode_eq_flag, BitVec.extractLsb'_or, BitVec.getLsbD_or]
  simp (disch := omega) only [field_extract_same, field_extract_outside, field_flag_getLsbD,
    field_getLsbD_outside, BitVec.or_zero, BitVec.zero_or, Bool.or_false, Bool.false_or, beq_iff_eq]
  simp only [Nat.reducePow, faultCode_mod, and_self]

end

/-! ### Values -/

theorem offerWord_bits (m : ChanParams) (hd : m.depthLimit ≤ 32) (hr : m.renewLimit ≤ 15) :
    ((offerWord m).extractLsb' 0 3).toNat = portCode m.producer ∧ (offerWord m).getLsbD 3 = false ∧
      ((offerWord m).extractLsb' 4 2).toNat = chanKindCode m.kind ∧
      ((offerWord m).extractLsb' 6 6).toNat = m.depthLimit ∧ ((offerWord m).extractLsb' 12 4).toNat = m.renewLimit := by
  have hdepth : m.depthLimit % 2 ^ 6 = m.depthLimit := Nat.mod_eq_of_lt (by omega)
  have hrenew : m.renewLimit % 2 ^ 4 = m.renewLimit := Nat.mod_eq_of_lt (by omega)
  simp only [offerWord, BitVec.extractLsb'_or, BitVec.getLsbD_or]
  simp (disch := omega) only [field_extract_same, field_extract_outside, field_getLsbD_outside, BitVec.or_zero,
    BitVec.zero_or, Bool.or_false, hdepth, hrenew]
  simp only [Nat.reducePow, portCode_mod, chanKindCode_mod, and_self]

/-- A word of a length below two fields. -/
theorem lengthWord_bits {n a width x : Nat} (hn : n ≤ 4096) (ha : 13 ≤ a) (hw : a + width ≤ 16) :
    ((field 0 13 n ||| field a width x).extractLsb' 0 13).toNat = n ∧
      ((field 0 13 n ||| field a width x).extractLsb' a width).toNat = x % 2 ^ width := by
  have hlen : n % 2 ^ 13 = n := Nat.mod_eq_of_lt (by omega)
  simp only [BitVec.extractLsb'_or]
  simp (disch := omega) only [field_extract_same, field_extract_outside, BitVec.or_zero, BitVec.zero_or, hlen, and_self]

/-- Settles O32, record by record and word by word. -/
theorem eventRecordLayout : Obligations.EventRecordLayout := by
  refine ⟨fun code tag k v stamp hb => ?_, fun k v stamp => ?_, summary_words, fun s p k h hk => ?_, fun s p h => ?_,
    offerWord_bits, fun s i b tr p c hlen => ⟨?_, ?_⟩⟩
  · obtain ⟨htype, hcode, htag⟩ := completionWord0_bits code tag
    exact ⟨_, _, rfl, htype, hcode, htag, recordWord1_bits k v hb⟩
  · obtain ⟨htype, hcode, hzero⟩ := noticeWord0_bits k
    exact ⟨_, _, rfl, htype, hcode, hzero, field_extract_bits v.channel (by omega), field_extract_outside _ (by omega),
      field_extract_outside _ (by omega)⟩
  · refine (State.plainRead_head h hk).trans (congrArg some ?_)
    cases hq : (s.hpi p).queue <;> simp only [State.headWord, hq]
  · obtain ⟨h0, h1, h2⟩ := State.plainRead_capture h
    cases hc : (s.hpi p).capture with
    | none =>
      simp only [State.captureWord0, State.captureWord1, State.captureWord2, hc] at h0 h1 h2
      simp only [List.mem_cons, List.not_mem_nil, or_false, forall_eq_or_imp, forall_eq]
      exact ⟨h0, h1, h2⟩
    | some r =>
      intro hoff
      simp only [State.captureWord0, State.captureWord1, State.captureWord2, hc] at h0 h1 h2
      obtain ⟨hvalid, hmore, hgap, hdir, hgap', hkind⟩ := captureWord0_bits r
      refine ⟨_, _, _, h0, h1, h2, hvalid, hmore, hgap, hdir, hgap', hkind.trans ?_, ?_, ?_⟩
      · cases r.kind <;> rfl
      · rw [field_toNat _ (by omega)]
        exact Nat.mod_eq_of_lt r.slot.isLt
      · rw [field_toNat _ (by omega)]
        exact Nat.mod_eq_of_lt (by omega)
  · obtain ⟨hl, hp⟩ := lengthWord_bits (a := 13) (width := 3) (x := portCode p) hlen (by omega) (by omega)
    exact ⟨rfl, rfl, rfl, hl, hp.trans (portCode_mod p), rfl, rfl, rfl, rfl⟩
  · obtain ⟨hl, ho⟩ := lengthWord_bits (a := 14) (width := 2) (x := outcomeCode c.outcome) hlen (by omega) (by omega)
    exact ⟨rfl, rfl, rfl, hl, ho.trans (outcomeCode_mod _), rfl, rfl, rfl, rfl⟩

end Sys2Proof.Machine

/-!
PROOFS. No command reads or changes the queue of waiting commands: each operation does the same to the state with another
queue, shown once for each operation, in the order of their definitions.
-/

namespace Sys2Proof.Machine

/-- The state with another queue of waiting commands. -/
def State.requeue (s : State) (q : List Instr) : State := { s with pending := q }

section
variable {s : State} {q : List Instr} {p : Port} {i : DescIx} {c : ChanIx} {r : Request}

/-! ### Records -/

@[simp] theorem State.requeue_hpi : (s.requeue q).hpi p = s.hpi p := rfl
@[simp] theorem State.requeue_online : (s.requeue q).online p = s.online p := rfl
@[simp] theorem State.requeue_busTaken : (s.requeue q).busTaken p = s.busTaken p := rfl
@[simp] theorem State.requeue_desc : (s.requeue q).desc i = s.desc i := rfl
@[simp] theorem State.requeue_chan : (s.requeue q).chan c = s.chan c := rfl
@[simp] theorem State.requeue_block (b : BlockIx) : (s.requeue q).block b = s.block b := rfl
@[simp] theorem State.requeue_inTransit : (s.requeue q).inTransit c = s.inTransit c := rfl
@[simp] theorem State.requeue_finding (w : MemIx) : (s.requeue q).finding w = s.finding w := rfl
@[simp] theorem State.requeue_readData (w : MemIx) : (s.requeue q).readData w = s.readData w := rfl
@[simp] theorem State.requeue_canGive (n : Nat) : (s.requeue q).canGive n = s.canGive n := rfl
@[simp] theorem State.requeue_allocWaits : (s.requeue q).allocWaits = s.allocWaits := rfl
@[simp] theorem State.requeue_setHpi (h : Hpi) : (s.requeue q).setHpi p h = (s.setHpi p h).requeue q := rfl
@[simp] theorem State.requeue_setDesc (d : Desc) : (s.requeue q).setDesc i d = (s.setDesc i d).requeue q := rfl
@[simp] theorem State.requeue_setLife (l : Life) : (s.requeue q).setLife i l = (s.setLife i l).requeue q := rfl
@[simp] theorem State.requeue_setChan (x : Chan) : (s.requeue q).setChan c x = (s.setChan c x).requeue q := rfl
@[simp] theorem State.requeue_setBlock (b : BlockIx) (x : BlockRec) :
    (s.requeue q).setBlock b x = (s.setBlock b x).requeue q := rfl
@[simp] theorem State.requeue_setQuota (n : Nat) : (s.requeue q).setQuota p n = (s.setQuota p n).requeue q := rfl
@[simp] theorem State.requeue_setSlot (k : Fin 8) (x : Option Word) :
    (s.requeue q).setSlot p k x = (s.setSlot p k x).requeue q := rfl
@[simp] theorem State.requeue_driveData (w : Word) : (s.requeue q).driveData p w = (s.driveData p w).requeue q := rfl
@[simp] theorem State.requeue_drawn : (s.requeue q).drawn = s.drawn.requeue q := rfl
@[simp] theorem State.requeue_callReexam : (s.requeue q).callReexam = s.callReexam.requeue q := rfl
@[simp] theorem State.requeue_storeWord (w : MemIx) (d : Word) :
    (s.requeue q).storeWord w d = (s.storeWord w d).requeue q := rfl
@[simp] theorem State.requeue_leaveOutstanding (tag : Tag) (x : EntryState) :
    (s.requeue q).leaveOutstanding p tag x = (s.leaveOutstanding p tag x).requeue q := rfl

/-- An operation that is repeated over a list. -/
theorem State.requeue_foldl {α : Type} {f : State → α → State}
    (hf : ∀ (s : State) (x : α), f (s.requeue q) x = (f s x).requeue q) (l : List α) (s : State) :
    l.foldl f (s.requeue q) = (l.foldl f s).requeue q := by
  induction l generalizing s with
  | nil => rfl
  | cons x l ih => rw [List.foldl_cons, hf, ih, List.foldl_cons]

/-! ### Completions, notices and presentations -/

@[simp] theorem State.requeue_complete (tag : Tag) (code : ResultCode) (v : Vals) :
    (s.requeue q).complete p tag code v = (s.complete p tag code v).requeue q := by
  unfold State.complete
  rw [State.requeue_hpi]
  split <;> rfl

@[simp] theorem State.requeue_notice (k : NoticeKind) (v : Vals) :
    (s.requeue q).notice p k v = (s.notice p k v).requeue q := by
  rw [State.notice_eq, State.notice_eq]
  rfl

@[simp] theorem State.requeue_completeAll (ws : List Wait) (code : ResultCode) (v : Vals) :
    (s.requeue q).completeAll p ws code v = (s.completeAll p ws code v).requeue q :=
  State.requeue_foldl (fun _ _ => State.requeue_complete ..) ws s

@[simp] theorem State.requeue_refuseOnChannel (code : ResultCode) :
    (s.requeue q).refuseOnChannel p r code = (s.refuseOnChannel p r code).requeue q := by
  unfold State.refuseOnChannel
  split
  · rw [State.requeue_drawn, State.requeue_complete]
    rfl
  · exact State.requeue_complete ..

theorem State.requeue_present {k : ReqKind} {f : Request → Port → State → State}
    (hf : ∀ r, f r p (s.requeue q) = (f r p s).requeue q) :
    (s.requeue q).present k p f = (s.present k p f).requeue q := by
  unfold State.present
  rw [show (s.requeue q).nextPending p = s.nextPending p from rfl, State.requeue_online]
  split
  · rfl
  · split
    · exact hf _
    · rfl

/-! ### The pool -/

@[simp] theorem State.requeue_handOver (s : State) (b : BlockIx) :
    (s.requeue q).handOver b = (s.handOver b).requeue q := by
  unfold State.handOver
  rw [State.requeue_block]
  split <;> rfl

@[simp] theorem State.requeue_freeDesc (s : State) (i : DescIx) :
    (s.requeue q).freeDesc i = (s.freeDesc i).requeue q := by
  unfold State.freeDesc
  rw [State.requeue_desc]
  split
  · rfl
  · rw [State.requeue_foldl State.requeue_handOver]
    rfl

theorem State.requeue_freeAll (l : List DescIx) (s : State) :
    l.foldl State.freeDesc (s.requeue q) = (l.foldl State.freeDesc s).requeue q :=
  State.requeue_foldl State.requeue_freeDesc l s

@[simp] theorem State.requeue_allocTo (n : Nat) : (s.requeue q).allocTo p n i = (s.allocTo p n i).requeue q := by
  unfold State.allocTo
  dsimp only
  rw [← State.requeue_setLife]
  exact congrArg (State.setLife · i _)
    (State.requeue_foldl (fun _ _ => State.requeue_setBlock ..) _ { s with freeList := s.freeList.drop n })

@[simp] theorem State.requeue_satisfy (tag : Tag) (n : Nat) :
    (s.requeue q).satisfy p tag n i = (s.satisfy p tag n i).requeue q := by
  rw [State.satisfy, State.requeue_allocTo, State.requeue_complete]
  rfl

@[simp] theorem State.requeue_serveHeads (n : Nat) (s : State) :
    State.serveHeads n (s.requeue q) = (State.serveHeads n s).requeue q := by
  induction n generalizing s with
  | zero => rfl
  | succ n ih =>
    unfold State.serveHeads
    rw [State.requeue_allocWaits]
    split
    · rfl
    next e rest _ =>
      rw [State.requeue_canGive]
      split
      · rfl
      next j _ => exact (congrArg _ (State.requeue_satisfy (s := { s with allocWaits := rest }) ..)).trans (ih _)

@[simp] theorem State.requeue_dropAllocWait (tag : Tag) :
    (s.requeue q).dropAllocWait p tag = (s.dropAllocWait p tag).requeue q := by
  rw [State.dropAllocWait_eq, State.dropAllocWait_eq]
  rfl

/-! ### Channels -/

@[simp] theorem State.requeue_deliver (m : ChanParams) (tag : Tag) (b : Buf) (t : Traffic) :
    (s.requeue q).deliver m tag i b t = (s.deliver m tag i b t).requeue q := by
  rw [State.deliver, State.requeue_setLife, State.requeue_complete]
  rfl

@[simp] theorem State.requeue_arrive (b : Buf) (t : Traffic) (x : Came) :
    (s.requeue q).arrive c i b t x = (s.arrive c i b t x).requeue q := by
  unfold State.arrive
  rw [State.requeue_chan]
  split
  · rfl
  · split
    · rw [State.requeue_setChan, State.requeue_setLife, State.requeue_complete]
      rfl
    · rfl

@[simp] theorem State.requeue_noticeReturns (e : Bool) :
    (s.requeue q).noticeReturns c e = (s.noticeReturns c e).requeue q := by
  unfold State.noticeReturns
  rw [State.requeue_chan]
  split
  · rfl
  · split
    · exact State.requeue_notice ..
    · rfl

@[simp] theorem State.requeue_unbind : (s.requeue q).unbind c = (s.unbind c).requeue q := by
  unfold State.unbind
  rw [State.requeue_chan]
  split
  · rfl
  · simp only [State.requeue_completeAll, State.requeue_setChan, State.requeue_notice]

@[simp] theorem State.requeue_unbindIfDrained : (s.requeue q).unbindIfDrained c = (s.unbindIfDrained c).requeue q := by
  unfold State.unbindIfDrained
  rw [State.requeue_chan, State.requeue_inTransit]
  split
  · exact State.requeue_unbind
  · rfl

@[simp] theorem State.requeue_producerClose : (s.requeue q).producerClose c = (s.producerClose c).requeue q := by
  unfold State.producerClose
  rw [State.requeue_chan]
  split
  · rfl
  · rw [State.requeue_setChan, State.requeue_completeAll]

theorem State.requeue_bounceOne (c : ChanIx) (s : State) (i : DescIx) :
    State.bounceOne c (s.requeue q) i = (State.bounceOne c s i).requeue q := by
  unfold State.bounceOne
  rw [State.requeue_desc]
  split
  · exact State.requeue_arrive ..
  all_goals rfl

@[simp] theorem State.requeue_consumerClose : (s.requeue q).consumerClose c = (s.consumerClose c).requeue q := by
  unfold State.consumerClose
  rw [State.requeue_chan]
  split
  · rfl
  · dsimp only
    rw [State.requeue_setChan, State.requeue_completeAll, State.requeue_freeAll,
      State.requeue_foldl (State.requeue_bounceOne c), State.requeue_online]
    split
    · split
      · rfl
      · exact State.requeue_notice ..
    · split
      · exact State.requeue_noticeReturns ..
      · rfl

@[simp] theorem State.requeue_closeBy : (s.requeue q).closeBy p c = (s.closeBy p c).requeue q := by
  unfold State.closeBy
  rw [State.requeue_chan]
  split
  · rfl
  · split
    · rw [State.requeue_setChan, State.requeue_producerClose]
    · rw [State.requeue_setChan, State.requeue_consumerClose]

@[simp] theorem State.requeue_comeBack (b : Buf) (t : Traffic) (x : Came) :
    (s.requeue q).comeBack i b t x = (s.comeBack i b t x).requeue q := by
  rw [State.comeBack, State.requeue_arrive, State.requeue_noticeReturns]
  rfl

@[simp] theorem State.requeue_revoke (byExpiry : Bool) :
    (s.requeue q).revoke i byExpiry = (s.revoke i byExpiry).requeue q := by
  unfold State.revoke
  rw [State.requeue_desc]
  split
  · rw [show ∀ k, (s.requeue q).comesBack k = s.comesBack k from fun _ => rfl]
    dsimp only
    rw [← State.requeue_unbindIfDrained]
    refine congrArg (State.unbindIfDrained · _) ?_
    split <;> split
    · rw [State.requeue_comeBack, State.requeue_notice]
      rfl
    · rw [State.requeue_freeDesc, State.requeue_notice]
      rfl
    · exact State.requeue_comeBack ..
    · exact State.requeue_freeDesc ..
  all_goals rfl

/-! ### Apertures -/

@[simp] theorem State.requeue_refuseAccess (addr : BitVec 14) (dir : Direction) (f : FaultKind) :
    (s.requeue q).refuseAccess p addr dir f = (s.refuseAccess p addr dir f).requeue q := by
  rw [State.refuseAccess_eq, State.refuseAccess_eq]
  rfl

@[simp] theorem State.requeue_markDamage (o : Nat) (dir : Direction) :
    (s.requeue q).markDamage p i (s.handle i) o dir = (s.markDamage p i (s.handle i) o dir).requeue q := by
  rw [State.markDamage_eq s, show s.handle i = (s.requeue q).handle i from rfl, State.markDamage_eq]
  rfl

@[simp] theorem State.requeue_serveRead (o : Nat) : (s.requeue q).serveRead p i o = (s.serveRead p i o).requeue q := by
  unfold State.serveRead
  dsimp only
  rw [State.requeue_desc, State.requeue_finding, State.requeue_readData, ← State.requeue_driveData]
  refine congrArg (State.driveData · p _) ?_
  split
  · rfl
  · rfl
  · exact State.requeue_markDamage ..

@[simp] theorem State.requeue_serveWrite (o : Nat) (x : BusWrite) :
    (s.requeue q).serveWrite p i o x = (s.serveWrite p i o x).requeue q := by
  by_cases hx : x.low = x.high
  · unfold State.serveWrite
    rw [← hx]
    cases x.low <;> rfl
  · rw [State.serveWrite_byte _ _ _ _ hx, State.serveWrite_byte _ _ _ _ hx, State.requeue_desc, State.requeue_finding,
      State.requeue_readData, ← State.requeue_storeWord]
    refine congrArg (State.storeWord · _ _) ?_
    split
    · exact State.requeue_markDamage ..
    · rfl

@[simp] theorem State.requeue_readAperture (addr : BitVec 14) :
    (s.requeue q).readAperture p addr = (s.readAperture p addr).requeue q := by
  unfold State.readAperture
  rw [State.requeue_busTaken, State.requeue_online,
    show (s.requeue q).accessCheck p addr .read = s.accessCheck p addr .read from rfl]
  split
  · split
    · exact State.requeue_serveRead ..
    · rw [State.requeue_refuseAccess, State.requeue_driveData]
  · rfl

@[simp] theorem State.requeue_writeAperture (addr : BitVec 14) (x : BusWrite) :
    (s.requeue q).writeAperture p addr x = (s.writeAperture p addr x).requeue q := by
  unfold State.writeAperture
  rw [State.requeue_busTaken, State.requeue_online,
    show (s.requeue q).accessCheck p addr .write = s.accessCheck p addr .write from rfl]
  split
  · split
    · exact State.requeue_serveWrite ..
    · exact State.requeue_refuseAccess ..
  · rfl

/-! ### Reclaim -/

theorem State.requeue_dropHoldings : (s.requeue q).dropHoldings p = (s.dropHoldings p).requeue q := by
  unfold State.dropHoldings
  dsimp only
  rw [State.requeue_allocWaits]
  split <;> rfl

theorem State.requeue_freeReturns : (s.requeue q).freeReturns c = (s.freeReturns c).requeue q := by
  unfold State.freeReturns
  rw [State.requeue_chan]
  split
  · rfl
  · rw [State.requeue_setChan, State.requeue_freeAll]

theorem State.requeue_reclaimChannel (p : Port) (s : State) (c : ChanIx) :
    State.reclaimChannel p (s.requeue q) c = (State.reclaimChannel p s c).requeue q := by
  unfold State.reclaimChannel
  rw [State.requeue_chan]
  split
  · rfl
  · split
    · rw [State.requeue_setChan, State.requeue_notice]
    · split
      · rw [State.requeue_setChan, State.requeue_complete]
      · rfl
  next a _ =>
    split
    · have hclosed : (if a.closedBy p = true then s.requeue q else (s.requeue q).closeBy p c) =
          (if a.closedBy p = true then s else s.closeBy p c).requeue q := by
        split
        · rfl
        · exact State.requeue_closeBy
      dsimp only
      rw [hclosed]
      generalize (if a.closedBy p = true then s else s.closeBy p c) = u
      have hfreed : (if a.params.producer = p then (u.requeue q).freeReturns c else u.requeue q) =
          (if a.params.producer = p then u.freeReturns c else u).requeue q := by
        split
        · exact State.requeue_freeReturns
        · rfl
      rw [hfreed]
      generalize (if a.params.producer = p then u.freeReturns c else u) = w
      rw [State.requeue_inTransit]
      split
      · exact State.requeue_unbind
      · exact State.requeue_notice ..
    · rfl

@[simp] theorem State.requeue_reclaimStart : (s.requeue q).reclaimStart p = (s.reclaimStart p).requeue q := by
  rw [State.reclaimStart, State.requeue_dropHoldings, State.requeue_foldl (State.requeue_reclaimChannel p)]
  rfl

theorem State.requeue_walkAt : (s.requeue q).walkAt p i = (s.walkAt p i).requeue q := by
  unfold State.walkAt
  rw [State.requeue_desc]
  split
  · split
    · exact State.requeue_revoke false
    · exact State.requeue_freeDesc ..
    · exact State.requeue_freeDesc ..
    all_goals rfl
  · rfl

end

end Sys2Proof.Machine

/-!
PROOFS. The commands on the state with another queue of waiting commands (O2).
-/

namespace Sys2Proof.Machine

section
variable {s : State} {q : List Instr} {p : Port} {i : DescIx} {c : ChanIx} {r : Request}

/-! ### The presentations -/

theorem State.requeue_handleChecks (w : Word) (bad : Bool) (accepts : List DescState) :
    (s.requeue q).handleChecks p w bad accepts = s.handleChecks p w bad accepts := rfl

theorem State.requeue_cancelDone (target : Tag) (v : Vals) :
    (s.requeue q).cancelDone p r target v = (s.cancelDone p r target v).requeue q := by
  rw [State.cancelDone, State.requeue_complete, State.requeue_complete]
  rfl

theorem requeue_settleCancel : settleCancel r p (s.requeue q) = (settleCancel r p s).requeue q := by
  unfold settleCancel
  rw [show (s.requeue q).cancelTarget p r = s.cancelTarget p r from rfl]
  split
  · exact State.requeue_complete ..
  · split
    · exact State.requeue_complete ..
    · next t _ =>
      rw [State.requeue_chan, State.requeue_allocWaits]
      dsimp only
      cases t.kind with
      | allocate =>
        dsimp only
        split
        · rw [State.requeue_dropAllocWait, State.requeue_cancelDone]
        · exact State.requeue_complete ..
      | take =>
        cases (s.chan t.chan).active? with
        | none => exact State.requeue_complete ..
        | some a =>
          dsimp only
          split
          · rw [State.requeue_setChan, State.requeue_cancelDone]
          · exact State.requeue_complete ..
      | collect =>
        cases (s.chan t.chan).active? with
        | none => exact State.requeue_complete ..
        | some a =>
          dsimp only
          split
          · rw [State.requeue_setChan, State.requeue_cancelDone]
          · exact State.requeue_complete ..
      | _ => exact State.requeue_complete ..

theorem requeue_settleAllocate : settleAllocate r p (s.requeue q) = (settleAllocate r p s).requeue q := by
  unfold settleAllocate
  rw [show (s.requeue q).allocChecks p r = s.allocChecks p r from rfl, State.requeue_allocWaits, State.requeue_canGive]
  split
  · exact State.requeue_complete ..
  · split
    · exact State.requeue_satisfy ..
    · split
      · exact State.requeue_complete ..
      · rfl

theorem requeue_settleFree : settleFree r p (s.requeue q) = (settleFree r p s).requeue q := by
  unfold settleFree
  rw [State.requeue_handleChecks]
  split
  · exact State.requeue_complete ..
  · rw [State.requeue_freeDesc, State.requeue_complete]
    rfl

theorem requeue_settleRefill : settleRefill r p (s.requeue q) = (settleRefill r p s).requeue q := by
  unfold settleRefill
  dsimp only
  rw [State.requeue_handleChecks, State.requeue_desc]
  split
  · rw [State.requeue_setLife, State.requeue_complete]
  all_goals exact State.requeue_complete ..

theorem State.requeue_moveQuota (x : Port) : (s.requeue q).moveQuota p x r = (s.moveQuota p x r).requeue q := by
  unfold State.moveQuota
  dsimp only
  rw [show (s.requeue q).quotas = s.quotas from rfl, State.requeue_setQuota, State.requeue_setQuota, State.requeue_notice,
    State.requeue_complete]

theorem requeue_settleGrant : settleGrant r p (s.requeue q) = (settleGrant r p s).requeue q := by
  unfold settleGrant
  rw [show (s.requeue q).grantChecks p r = s.grantChecks p r from rfl]
  split
  · exact State.requeue_moveQuota _
  all_goals exact State.requeue_complete ..

theorem requeue_settleRetest : settleRetest r p (s.requeue q) = (settleRetest r p s).requeue q := by
  unfold settleRetest
  rw [show (s.requeue q).retest = s.retest from rfl, show (s.requeue q).retired = s.retired from rfl]
  split
  · exact State.requeue_complete ..
  · exact State.requeue_complete ..
  · rfl

theorem requeue_settleOffer : settleOffer r p (s.requeue q) = (settleOffer r p s).requeue q := by
  unfold settleOffer
  rw [show (s.requeue q).offerChecks p r = s.offerChecks p r from rfl]
  split
  · rw [State.bindOffer, State.requeue_setChan, State.requeue_notice, State.requeue_leaveOutstanding]
    rfl
  all_goals exact State.requeue_refuseOnChannel ..

theorem requeue_settleWithdraw : settleWithdraw r p (s.requeue q) = (settleWithdraw r p s).requeue q := by
  unfold settleWithdraw
  rw [State.requeue_chan]
  split
  · exact State.requeue_complete ..
  · split
    · split
      · simp only [State.requeue_setChan, State.requeue_complete, State.requeue_notice]
      · exact State.requeue_complete ..
    all_goals exact State.requeue_complete ..

theorem requeue_settleAccept : settleAccept r p (s.requeue q) = (settleAccept r p s).requeue q := by
  unfold settleAccept
  rw [State.requeue_chan]
  split
  · exact State.requeue_complete ..
  · split
    · split
      · simp only [State.requeue_setChan, State.requeue_complete]
      · exact State.requeue_complete ..
    all_goals exact State.requeue_complete ..

theorem requeue_settleReject : settleReject r p (s.requeue q) = (settleReject r p s).requeue q := by
  unfold settleReject
  rw [State.requeue_chan]
  split
  · exact State.requeue_complete ..
  · split
    · split
      · simp only [State.requeue_setChan, State.requeue_complete]
      · exact State.requeue_complete ..
    all_goals exact State.requeue_complete ..

theorem requeue_settleClose : settleClose r p (s.requeue q) = (settleClose r p s).requeue q := by
  unfold settleClose
  dsimp only
  rw [show (s.requeue q).closeChecks p r = s.closeChecks p r from rfl, State.requeue_chan]
  split
  · exact State.requeue_complete ..
  · exact State.requeue_complete ..
  · split
    · exact State.requeue_complete ..
    · rw [State.requeue_closeBy, State.requeue_inTransit, State.requeue_complete]
      split
      · exact State.requeue_unbind
      · exact State.requeue_notice ..

theorem requeue_settleQueryChannel : settleQueryChannel r p (s.requeue q) = (settleQueryChannel r p s).requeue q := by
  unfold settleQueryChannel
  split
  · exact State.requeue_complete ..
  · exact State.requeue_complete ..

theorem State.requeue_postBuffer (b : Buf) (a : Active) :
    (s.requeue q).postBuffer p r i b a = (s.postBuffer p r i b a).requeue q := by
  unfold State.postBuffer
  dsimp only
  split
  · rw [State.requeue_setChan, State.requeue_deliver, State.requeue_complete]
  · rw [State.requeue_setChan, State.requeue_setLife, ← State.requeue_complete]
    refine congrArg (State.complete · _ _ _ _) ?_
    split
    · exact State.requeue_notice ..
    · rfl

theorem requeue_settlePost : settlePost r p (s.requeue q) = (settlePost r p s).requeue q := by
  unfold settlePost
  rw [show (s.requeue q).postChecks p r = s.postChecks p r from rfl, State.requeue_desc, State.requeue_chan]
  split
  · exact State.requeue_postBuffer ..
  all_goals exact State.requeue_refuseOnChannel ..

theorem requeue_settleTake : settleTake r p (s.requeue q) = (settleTake r p s).requeue q := by
  unfold settleTake
  rw [show (s.requeue q).takeChecks p r = s.takeChecks p r from rfl, State.requeue_chan]
  split
  · exact State.requeue_refuseOnChannel ..
  · exact State.requeue_refuseOnChannel ..
  · split
    · unfold State.takeEmpty
      split
      · exact State.requeue_complete ..
      · split
        · exact State.requeue_complete ..
        · rfl
    · rw [State.requeue_desc]
      split
      · rw [State.requeue_setChan, State.requeue_deliver]
      all_goals rfl

theorem requeue_settleCollect : settleCollect r p (s.requeue q) = (settleCollect r p s).requeue q := by
  unfold settleCollect
  rw [show (s.requeue q).collectChecks p r = s.collectChecks p r from rfl, State.requeue_chan]
  split
  · exact State.requeue_refuseOnChannel ..
  · exact State.requeue_refuseOnChannel ..
  · split
    · unfold State.collectHead
      rw [State.requeue_desc]
      split
      · rw [State.requeue_setChan, State.requeue_setLife, State.requeue_complete, State.requeue_unbindIfDrained]
        rfl
      all_goals rfl
    · split
      · exact State.requeue_complete ..
      · rfl

theorem requeue_settleRelease : settleRelease r p (s.requeue q) = (settleRelease r p s).requeue q := by
  unfold settleRelease
  rw [show (s.requeue q).giveUpChecks p r .roundTrip = s.giveUpChecks p r .roundTrip from rfl, State.requeue_desc]
  split
  · rw [State.requeue_freeDesc, State.requeue_complete, State.requeue_unbindIfDrained]
  all_goals exact State.requeue_complete ..

theorem State.requeue_giveBack (b : Buf) (t : Traffic) :
    (s.requeue q).giveBack p r i b t = (s.giveBack p r i b t).requeue q := by
  unfold State.giveBack
  rw [show (s.requeue q).comesBack t.channel = s.comesBack t.channel from rfl]
  dsimp only
  rw [← State.requeue_unbindIfDrained, ← State.requeue_complete]
  refine congrArg (fun u => (State.complete u _ _ _ _).unbindIfDrained _) ?_
  split
  · exact State.requeue_freeDesc ..
  · exact State.requeue_comeBack ..

theorem requeue_settleReturn : settleReturn r p (s.requeue q) = (settleReturn r p s).requeue q := by
  unfold settleReturn
  rw [show (s.requeue q).returnChecks p r = s.returnChecks p r from rfl, State.requeue_desc]
  split
  · exact State.requeue_giveBack ..
  all_goals exact State.requeue_complete ..

theorem requeue_settleRenew : settleRenew r p (s.requeue q) = (settleRenew r p s).requeue q := by
  unfold settleRenew
  dsimp only
  rw [State.requeue_handleChecks, State.requeue_desc]
  split
  · rw [State.requeue_chan]
    split
    · exact State.requeue_complete ..
    · split
      · rw [State.requeue_setLife, State.requeue_complete]
      · unfold State.renewRefused
        split
        · exact State.requeue_complete ..
        · rw [State.requeue_drawn, State.requeue_complete]
          rfl
        · exact State.requeue_complete ..
  all_goals exact State.requeue_complete ..

theorem requeue_settleMap : settleMap r p (s.requeue q) = (settleMap r p s).requeue q := by
  unfold settleMap
  dsimp only
  rw [show (s.requeue q).mapChecks p r = s.mapChecks p r from rfl]
  split
  · exact State.requeue_complete ..
  · rw [State.requeue_setSlot, State.requeue_complete]
    rfl

theorem requeue_settleUnmap : settleUnmap r p (s.requeue q) = (settleUnmap r p s).requeue q := by
  unfold settleUnmap
  rw [State.requeue_hpi]
  split
  · exact State.requeue_complete ..
  · split
    · exact State.requeue_complete ..
    · rw [State.requeue_setSlot, State.requeue_complete]
      rfl

/-! ### The port bus -/

theorem State.requeue_submit : (s.requeue q).submit p = (s.submit p).requeue q := by
  unfold State.submit
  rw [State.requeue_busTaken, State.requeue_hpi, show (s.requeue q).submitAnswer p = s.submitAnswer p from rfl]
  split
  · dsimp only
    rw [← State.requeue_driveData]
    refine congrArg (State.driveData · p _) ?_
    split
    · unfold State.enter
      dsimp only
      rw [State.requeue_online]
      split
      · rfl
      · rw [State.attachNow_eq, State.attachNow_eq]
        rfl
    · rfl
  · rfl

theorem State.requeue_attach :
    (if ((s.requeue q).hpi p).state = .offline then
        if kindOf (stagedKind ((s.requeue q).hpi p).staging) = some .attach then (s.requeue q).submit p else s.requeue q
      else (s.requeue q).present .attach p settleAttach) =
    (if (s.hpi p).state = .offline then
        if kindOf (stagedKind (s.hpi p).staging) = some .attach then s.submit p else s
      else s.present .attach p settleAttach).requeue q := by
  rw [State.requeue_hpi]
  split
  · split
    · exact State.requeue_submit
    · rfl
  · exact State.requeue_present fun r => State.requeue_complete ..

theorem State.requeue_consumeHead : (s.requeue q).consumeHead p = (s.consumeHead p).requeue q := by
  unfold State.consumeHead
  rw [State.requeue_busTaken, State.requeue_hpi]
  split
  · split
    · rfl
    · dsimp only
      split <;> rfl
  · rfl

theorem State.requeue_writeEnable (w : BusWrite) : (s.requeue q).writeEnable p w = (s.writeEnable p w).requeue q := by
  unfold State.writeEnable
  rw [State.requeue_busTaken, State.requeue_online]
  split <;> rfl

theorem State.requeue_clearFault : (s.requeue q).clearFault p = (s.clearFault p).requeue q := by
  unfold State.clearFault
  rw [State.requeue_busTaken, State.requeue_online]
  split <;> rfl

theorem State.requeue_busWrite (addr : BitVec 15) (w : BusWrite) :
    (s.requeue q).busWrite p addr w = (s.busWrite p addr w).requeue q := by
  unfold State.busWrite
  split
  · unfold State.writeStaging
    rw [State.requeue_busTaken]
    split <;> rfl
  · exact State.requeue_writeAperture ..
  · exact State.requeue_consumeHead
  · exact State.requeue_writeEnable w
  · exact State.requeue_clearFault
  all_goals rfl

theorem State.requeue_readTickLow : (s.requeue q).readTickLow p = (s.readTickLow p).requeue q := by
  unfold State.readTickLow
  rw [State.requeue_busTaken]
  split <;> rfl

/-! ### Events inside the part -/

theorem State.requeue_reexamine : (s.requeue q).reexamine = s.reexamine.requeue q := by
  unfold State.reexamine
  rw [show (s.requeue q).reexamsDue = s.reexamsDue from rfl]
  split
  · rfl
  · exact State.requeue_serveHeads _ { s with reexamsDue := _ }

theorem State.requeue_tickOnce : (s.requeue q).tickOnce = s.tickOnce.requeue q := by
  unfold State.tickOnce
  rw [show (s.requeue q).resetIn = s.resetIn from rfl]
  split <;> rfl

theorem State.requeue_expireAlloc (tag : Tag) : (s.requeue q).expireAlloc p tag = (s.expireAlloc p tag).requeue q := by
  unfold State.expireAlloc
  rw [State.requeue_allocWaits]
  split
  · rw [State.requeue_dropAllocWait, State.requeue_complete]
  · rfl

theorem State.requeue_expireTake (tag : Tag) : (s.requeue q).expireTake c tag = (s.expireTake c tag).requeue q := by
  unfold State.expireTake
  rw [State.requeue_chan]
  split
  · rfl
  · split
    · rw [State.requeue_setChan, State.requeue_complete]
    · rfl

theorem State.requeue_expireCollect (tag : Tag) :
    (s.requeue q).expireCollect c tag = (s.expireCollect c tag).requeue q := by
  unfold State.expireCollect
  rw [State.requeue_chan]
  split
  · rfl
  · split
    · rw [State.requeue_setChan, State.requeue_complete]
    · rfl

theorem State.requeue_expireOffer : (s.requeue q).expireOffer c = (s.expireOffer c).requeue q := by
  unfold State.expireOffer
  rw [State.requeue_chan]
  split
  · rw [State.requeue_setChan, State.requeue_complete, State.requeue_notice]
  all_goals rfl

theorem State.requeue_expireHold : (s.requeue q).expireHold i = (s.expireHold i).requeue q := by
  unfold State.expireHold
  rw [State.requeue_desc]
  split
  · exact State.requeue_revoke true
  all_goals rfl

theorem State.requeue_closeTest (b : BlockIx) (ds : List Disturbance) :
    (s.requeue q).closeTest b ds = (s.closeTest b ds).requeue q := by
  refine State.requeue_foldl (fun u d => ?_) ds (s.zeroBlock b)
  split <;> rfl

theorem State.requeue_takeResult (b : BlockIx) (pass : Bool) :
    (s.requeue q).takeResult b pass = (s.takeResult b pass).requeue q := by
  unfold State.takeResult
  split <;> rfl

theorem State.requeue_endRetest (t : Retest) (passed : Nat) :
    (s.requeue q).endRetest t passed = (s.endRetest t passed).requeue q := by
  unfold State.endRetest
  dsimp only
  split
  · rfl
  · exact State.requeue_complete (s := { s with retest := none }) ..

theorem State.requeue_wordPasses (ds : List Disturbance) (w : MemIx) : (s.requeue q).wordPasses ds w = s.wordPasses ds w :=
  rfl

theorem State.requeue_blockTestPasses (b : BlockIx) (ds : List Disturbance) :
    (s.requeue q).blockTestPasses b ds = s.blockTestPasses b ds := by
  simp only [State.blockTestPasses, State.requeue_wordPasses]

theorem State.requeue_endTest : (s.requeue q).endTest = s.endTest.requeue q := by
  unfold State.endTest
  rw [show (s.requeue q).retest = s.retest from rfl]
  cases s.retest with
  | none => rfl
  | some t =>
    dsimp only
    rw [State.requeue_blockTestPasses, State.requeue_closeTest, State.requeue_takeResult]
    generalize (s.closeTest t.block t.disturbed).takeResult t.block _ = u
    obtain ⟨l, hl⟩ : ∃ l, u.retired = l := ⟨_, rfl⟩
    have hlq : (u.requeue q).retired = l := hl
    cases t.remaining - 1 with
    | zero => exact State.requeue_endRetest ..
    | succ n =>
      simp only [hl, hlq]
      cases l with
      | nil => exact State.requeue_endRetest ..
      | cons b rest => rfl

theorem State.requeue_walkStep : (s.requeue q).walkStep p = (s.walkStep p).requeue q := by
  unfold State.walkStep
  rw [State.requeue_hpi]
  split
  · dsimp only
    rw [State.requeue_walkAt]
    rfl
  all_goals rfl

theorem State.requeue_resetAssert :
    (if (s.requeue q).online p = true
      then ((s.requeue q).setHpi p { (s.requeue q).hpi p with resetIn := true }).reclaimStart p
      else (s.requeue q).setHpi p { (s.requeue q).hpi p with resetIn := true }) =
    (if s.online p = true then (s.setHpi p { s.hpi p with resetIn := true }).reclaimStart p
      else s.setHpi p { s.hpi p with resetIn := true }).requeue q := by
  rw [State.requeue_online, State.requeue_hpi, State.requeue_setHpi, State.requeue_reclaimStart]
  split <;> rfl

theorem State.requeue_deviceReset : (s.requeue q).deviceReset = s.deviceReset.requeue q := by
  simp only [State.deviceReset, State.requeue]

theorem State.requeue_memoryClear :
    (if (s.requeue q).resetIn = true then { (s.requeue q).zeroMemory with resetIn := false } else s.requeue q) =
      (if s.resetIn = true then { s.zeroMemory with resetIn := false } else s).requeue q := by
  rw [show (s.requeue q).resetIn = s.resetIn from rfl]
  split <;> rfl

theorem State.requeue_deviceReady :
    (if (s.requeue q).resetIn = true then s.requeue q else { s.requeue q with device := .ready }) =
      (if s.resetIn = true then s else { s with device := .ready }).requeue q := by
  rw [show (s.requeue q).resetIn = s.resetIn from rfl]
  split <;> rfl

theorem State.requeue_storedBitUpset (w : MemIx) (flips cells level : StoredBits) :
    ((s.requeue q).noteUpset w flips cells).upsetWord w flips cells level =
      ((s.noteUpset w flips cells).upsetWord w flips cells level).requeue q := by
  have hnote : (s.requeue q).noteUpset w flips cells = (s.noteUpset w flips cells).requeue q := by
    unfold State.noteUpset
    rw [show (s.requeue q).retest = s.retest from rfl]
    split
    · rfl
    · split <;> rfl
  rw [hnote]
  rfl

/-! ### Every command -/

/-- Each command does the same to the state with another queue. -/
theorem exec_requeue (c : Instr) (s : State) (q : List Instr) :
    ∃ t, exec c s = .next t ∧ exec c (s.requeue q) = .next (t.requeue q) := by
  have hpresent {k : ReqKind} {p : Port} {f : Request → Port → State → State}
      (hf : ∀ r, f r p (s.requeue q) = (f r p s).requeue q) :
      (.next ((s.requeue q).present k p f) : Host.Outcome State Fault Refusal) = .next ((s.present k p f).requeue q) :=
    congrArg _ (State.requeue_present hf)
  cases c with
  | submission p => exact ⟨_, rfl, congrArg _ State.requeue_submit⟩
  | registerWrite p addr w => exact ⟨_, rfl, congrArg _ (State.requeue_busWrite addr w)⟩
  | consume p w => exact ⟨_, rfl, congrArg _ State.requeue_consumeHead⟩
  | attentionEnableWrite p w => exact ⟨_, rfl, congrArg _ (State.requeue_writeEnable w)⟩
  | faultClear p w => exact ⟨_, rfl, congrArg _ State.requeue_clearFault⟩
  | tickLowRead p => exact ⟨_, rfl, congrArg _ State.requeue_readTickLow⟩
  | apertureRead p addr => exact ⟨_, rfl, congrArg _ (State.requeue_readAperture addr)⟩
  | apertureWrite p addr w => exact ⟨_, rfl, congrArg _ (State.requeue_writeAperture addr w)⟩
  | attach p => exact ⟨_, rfl, congrArg _ State.requeue_attach⟩
  | detach p => exact ⟨_, rfl, hpresent (f := settleDetach) fun _ => State.requeue_reclaimStart⟩
  | cancel p => exact ⟨_, rfl, hpresent fun _ => requeue_settleCancel⟩
  | allocate p => exact ⟨_, rfl, hpresent fun _ => requeue_settleAllocate⟩
  | free p => exact ⟨_, rfl, hpresent fun _ => requeue_settleFree⟩
  | refill p => exact ⟨_, rfl, hpresent fun _ => requeue_settleRefill⟩
  | grant p => exact ⟨_, rfl, hpresent fun _ => requeue_settleGrant⟩
  | retest p => exact ⟨_, rfl, hpresent fun _ => requeue_settleRetest⟩
  | queryPool p => exact ⟨_, rfl, hpresent (f := settleQueryPool) fun _ => State.requeue_complete ..⟩
  | offer p => exact ⟨_, rfl, hpresent fun _ => requeue_settleOffer⟩
  | withdraw p => exact ⟨_, rfl, hpresent fun _ => requeue_settleWithdraw⟩
  | accept p => exact ⟨_, rfl, hpresent fun _ => requeue_settleAccept⟩
  | reject p => exact ⟨_, rfl, hpresent fun _ => requeue_settleReject⟩
  | close p => exact ⟨_, rfl, hpresent fun _ => requeue_settleClose⟩
  | queryChannel p => exact ⟨_, rfl, hpresent fun _ => requeue_settleQueryChannel⟩
  | post p => exact ⟨_, rfl, hpresent fun _ => requeue_settlePost⟩
  | take p => exact ⟨_, rfl, hpresent fun _ => requeue_settleTake⟩
  | collect p => exact ⟨_, rfl, hpresent fun _ => requeue_settleCollect⟩
  | release p => exact ⟨_, rfl, hpresent fun _ => requeue_settleRelease⟩
  | returnBuffer p => exact ⟨_, rfl, hpresent fun _ => requeue_settleReturn⟩
  | renew p => exact ⟨_, rfl, hpresent fun _ => requeue_settleRenew⟩
  | mapSlot p => exact ⟨_, rfl, hpresent fun _ => requeue_settleMap⟩
  | unmapSlot p => exact ⟨_, rfl, hpresent fun _ => requeue_settleUnmap⟩
  | poolReexamination => exact ⟨_, rfl, congrArg _ State.requeue_reexamine⟩
  | tick => exact ⟨_, rfl, congrArg _ State.requeue_tickOnce⟩
  | allocationWaitExpiry p tag => exact ⟨_, rfl, congrArg _ (State.requeue_expireAlloc tag)⟩
  | takeWaitExpiry c tag => exact ⟨_, rfl, congrArg _ (State.requeue_expireTake tag)⟩
  | collectWaitExpiry c tag => exact ⟨_, rfl, congrArg _ (State.requeue_expireCollect tag)⟩
  | offerExpiry c => exact ⟨_, rfl, congrArg _ State.requeue_expireOffer⟩
  | holdExpiry d => exact ⟨_, rfl, congrArg _ State.requeue_expireHold⟩
  | blockTestEnd => exact ⟨_, rfl, congrArg _ State.requeue_endTest⟩
  | reclaimWalkStep p => exact ⟨_, rfl, congrArg _ State.requeue_walkStep⟩
  | portResetAssert p => exact ⟨_, rfl, congrArg _ State.requeue_resetAssert⟩
  | portResetRelease p => exact ⟨_, rfl, rfl⟩
  | deviceReset => exact ⟨s.deviceReset, rfl, congrArg Host.Outcome.next State.requeue_deviceReset⟩
  | memoryClear => exact ⟨_, rfl, congrArg _ State.requeue_memoryClear⟩
  | deviceReady => exact ⟨_, rfl, congrArg _ State.requeue_deviceReady⟩
  | storedBitUpset w flips stuck level =>
    exact ⟨_, rfl, congrArg _ (State.requeue_storedBitUpset w flips stuck level)⟩

end

/-- Settles O2, command by command. -/
theorem commandsIgnoreTheQueue : Obligations.CommandsIgnoreTheQueue := by
  intro c s t q h
  obtain ⟨u, hu, hq⟩ := exec_requeue c s q
  obtain rfl : u = t := Host.Outcome.next.inj (hu.symm.trans h)
  exact hq

end Sys2Proof.Machine

/-!
PROOFS. OFFER: its checks and the channel it binds (R43, R44).
-/

namespace Sys2Proof.Machine

section
variable {s : State} {p : Port} {r : Request} {k : ReqKind} {c : Instr} {code : ResultCode}

/-! ### A refusal that names a channel -/

/-- A refusal on a channel out of range is a completion that shows a free value (assumption 5). -/
theorem State.presents.refused_outOfRange (h : s.presents k p r) (hr : 16 ≤ r.channel.toNat)
    (e : Machine.exec c s = .next (s.refuseOnChannel p r code)) :
    ∃ x, Machine.exec c s = .next
      { s.setHpi p ((s.hpi p).afterCompletion r.tag k code { channel := x } s.stamp) with
        freeDraws := s.freeDraws + 1 } := by
  refine ⟨s.freeValue.setWidth 4, ?_⟩
  rw [e, State.refuseOnChannel_outOfRange hr, State.complete_of_ports (u := s.drawn) h.hasRequest rfl rfl]
  rfl

theorem State.presents.refused_named (h : s.presents k p r) {d : ChanIx} (hr : r.channel.toNat = d.val)
    (e : Machine.exec c s = .next (s.refuseOnChannel p r code)) :
    ∃ t, Machine.exec c s = .next t ∧ s.onlyCompletes t p r code { channel := BitVec.ofNat 4 d.val } :=
  h.completes (e.trans (congrArg _ (State.refuseOnChannel_named hr)))

/-! ### The checks of an OFFER (R43) -/

/-- A channel kind field names the kind whose code it holds (R177). -/
theorem chanKindOf_eq_some_iff (x : BitVec 2) (kind : ChanKind) : chanKindOf x = some kind ↔ chanKindCode kind = x.toNat := by
  cases kind <;> revert x <;> decide

theorem chanKindOf_eq_none_iff (x : BitVec 2) : chanKindOf x = none ↔ x.toNat < 1 ∨ 2 < x.toNat := by
  revert x; decide

theorem Request.offerBad_iff {d : ChanIx} (hr : r.channel.toNat = d.val) :
    r.offerBad = true ↔ 4 < r.peer.toNat ∨ r.peer.toNat < 1 ∨ r.chanKind.toNat < 1 ∨ 2 < r.chanKind.toNat ∨
      r.count.toNat < 1 ∨ 32 < r.count.toNat ∨ 15 < r.slot.toNat ∨ r.limit = 0#16 := by
  simp only [Request.offerBad, Request.channelBad_of_eq hr, Bool.false_or, Bool.or_eq_true, Option.isNone_iff_eq_none,
    portOf_eq_none_iff, chanKindOf_eq_none_iff, decide_eq_true_eq, beq_iff_eq]
  tauto

theorem State.firstFail_offerChecks {d : ChanIx} {q : Port} (hr : r.channel.toNat = d.val) (hq : portCode q = r.peer.toNat)
    (hbad : r.offerBad = false) :
    firstFail (s.offerChecks p r) =
      if q = p then some .badRequest
      else if s.chan d ≠ .unbound then some .channelBusy
      else if (s.hpi q).state ≠ .online then some .peerOffline else none := by
  simp only [State.offerChecks, firstFail, hbad, (portOf_eq_some_iff r.peer q).2 hq, Request.chan_of_eq hr, beq_iff_eq,
    Option.some.injEq, bne_iff_ne, ne_eq, Chan.state_eq_unbound_iff, Option.any_some, Bool.not_eq_true', State.online,
    Bool.false_eq_true, if_false, beq_eq_false_iff_ne]

theorem settleOffer_accepted {q : Port} {kind : ChanKind} (hq : portCode q = r.peer.toNat)
    (hkind : chanKindCode kind = r.chanKind.toNat) (h : firstFail (s.offerChecks p r) = none) :
    settleOffer r p s = s.bindOffer r ⟨kind, p, q, r.count.toNat, r.length.toNat, r.slot.toNat⟩ := by
  simp only [settleOffer, h, (portOf_eq_some_iff r.peer q).2 hq, (chanKindOf_eq_some_iff r.chanKind kind).2 hkind]

/-- The HPI of each end is updated from what it was (R44). -/
theorem State.bindOffer_eq {d : ChanIx} {m : ChanParams} (hr : r.channel.toNat = d.val) (hm : m.producer ≠ m.consumer) :
    s.bindOffer r m = ((s.setHpi m.producer ((s.hpi m.producer).leftAs r.tag .waiting)).setHpi m.consumer
      ((s.hpi m.consumer).afterNotice .offerArrived
        { channel := BitVec.ofNat 4 d.val, v0 := offerWord m, v1 := word m.holdLimit, v2 := r.limit } s.stamp)).setChan d
          (.offered m r.tag (.running r.limit.toNat)) := by
  have hkept (h : Hpi) : (s.setHpi m.consumer h).hpi m.producer = s.hpi m.producer := s.hpi_setHpi_ne h hm.symm
  unfold State.bindOffer
  rw [Request.chan_of_eq hr, State.notice_eq, State.leaveOutstanding_eq, State.setChan_setHpi, State.hpi_setChan,
    State.stamp_setChan, State.setChan_setHpi, State.hpi_setChan, hkept, State.setHpi_comm s hm]
  rfl

end

/-- Settles O47, by the checks in their order and then the channel bound. -/
theorem offerBindsTheChannel : Obligations.OfferBindsTheChannel := by
  intro s p r h
  have hrefuse {code : ResultCode} (hfail : firstFail (s.offerChecks p r) = some code) :
      exec (.offer p) s = .next (s.refuseOnChannel p r code) := by rw [h.exec_offer, settleOffer_refused hfail]
  refine ⟨fun hr => ?_, fun k hr => ⟨fun hbad => ?_, fun q kind hgood hq hkind => ?_⟩⟩
  · have hbad : r.offerBad = true := by simp only [Request.offerBad, Request.channelBad_of_ge hr, Bool.true_or]
    obtain ⟨x, hx⟩ := h.refused_outOfRange hr (hrefuse (code := .badRequest) (by simp only [State.offerChecks, firstFail,
      hbad, if_true]))
    exact ⟨_, x, hx, rfl⟩
  · refine h.refused_named hr (hrefuse ?_)
    simp only [State.offerChecks, firstFail, (Request.offerBad_iff hr).2 hbad, if_true]
  · have hbad : r.offerBad = false := by rwa [← Bool.not_eq_true, Request.offerBad_iff hr]
    have hchecks := State.firstFail_offerChecks (s := s) (p := p) hr hq hbad
    split_ifs at hchecks ⊢ with hself hbusy hoffline
    · exact h.refused_named hr (hrefuse hchecks)
    · exact h.refused_named hr (hrefuse hchecks)
    · exact h.refused_named hr (hrefuse hchecks)
    · rw [h.exec_offer, settleOffer_accepted hq hkind hchecks, State.bindOffer_eq hr (Ne.symm hself)]
      simp only [word, BitVec.ofNat_toNat, BitVec.setWidth_eq]

end Sys2Proof.Machine

/-!
PROOFS. POST: its checks, and the buffer it queues or delivers (R60, R61, R63, R64).
-/

namespace Sys2Proof.Machine

section
variable {s : State} {p : Port} {r : Request} {k : ChanIx} {a : Active} {b : Buf} {code : ResultCode}

/-! ### The values posted (R61) -/

/-- The values posted fit a buffer of this extent on a channel of this kind (R61). -/
def Request.postFits (r : Request) (extent : Nat) (roundTrip : Prop) : Prop :=
  r.length.toNat ≤ extent ∧ ((r.replyOpen = 0#16 ∧ r.replyClose = 0#16) ∨ (roundTrip ∧ r.replyOpen.toNat % 2 = 0 ∧
    r.replyClose.toNat % 2 = 0 ∧ r.replyOpen.toNat < r.replyClose.toNat ∧ r.replyClose.toNat ≤ extent))

theorem postedBad_eq_false_iff {extent : Nat} {roundTrip : Bool} :
    postedBad r extent roundTrip = false ↔ r.postFits extent (roundTrip = true) := by
  by_cases hz : r.replyOpen = 0#16 ∧ r.replyClose = 0#16
  · simp [postedBad, postedReply, Request.postFits, hz]
  · simp only [postedBad, postedReply, Request.postFits, if_neg hz, Bool.or_eq_false_iff,
      decide_eq_false_iff_not, Bool.not_eq_false', bne_eq_false_iff_eq, Nat.not_lt, Nat.not_le, and_assoc]
    rw [or_iff_right hz]

/-! ### The checks of a POST (R60) -/

theorem State.firstFail_postChecks (hr : r.channel.toNat = k.val) :
    firstFail (s.postChecks p r) =
      (firstFail (s.handleChecks p r.handle (handleBad r.handle) [.filling])).or
        (if (s.chan k).producedBy p = false then some .notEndpoint
        else if (s.chan k).state ≠ .opened then some .noChannel
        else if (s.chan k).params?.elim 0 (·.depthLimit) ≤ s.inTransit k then some .full
        else if postedBad r (s.desc (handleIx r.handle)).extent ((s.chan k).isKind .roundTrip) = true then some .range
        else none) := by
  rw [State.postChecks, firstFail_append, Request.channelBad_of_eq hr, Bool.or_false, Request.chan_of_eq hr]
  simp only [firstFail, Bool.not_eq_true', bne_iff_ne, decide_eq_true_eq]

theorem Chan.active_of_opened {x : Chan} {m : ChanParams} (h : x.state = .opened) (hm : x.params? = some m) :
    ∃ a, x = .active a ∧ a.params = m := by
  cases x with
  | unbound => cases h
  | offered _ _ _ => cases h
  | active a => exact ⟨a, rfl, Option.some.inj hm⟩

theorem Desc.filling_buf {d : Desc} (h : d.state = .filling) : ∃ b, d.life = .filling b := by
  cases hl : d.life with
  | filling b => exact ⟨b, rfl⟩
  | _ => simp [Desc.state, hl] at h

theorem settlePost_accepted {i : DescIx} {d : ChanIx} (hi : handleIx r.handle = i) (hd : r.chan = d)
    (h : firstFail (s.postChecks p r) = none) (hb : (s.desc i).life = .filling b) (ha : s.chan d = .active a) :
    settlePost r p s = s.postBuffer p r i b a := by
  have hbuf : (s.desc (handleIx r.handle)).buf = some b := by rw [hi, Desc.buf, hb]
  have hact : (s.chan r.chan).active? = some a := by rw [hd, ha]; rfl
  rw [settlePost, h, hbuf, hact, hi]

theorem State.postBuffer_traffic (i : DescIx) :
    ((s.postBuffer p r i b a).desc i).traffic = some (postedTraffic r a.nextSequence) := by
  unfold State.postBuffer
  cases a.takeWaits with
  | cons w ws =>
    rw [State.desc_of_descs (State.complete_descs ..) i, State.deliver, State.desc_of_descs (State.complete_descs ..) i,
      State.setLife, State.desc_setDesc_same]
    rfl
  | nil =>
    dsimp only
    rw [State.desc_of_descs (State.complete_descs ..) i]
    split
    · rw [State.desc_of_descs (State.notice_descs ..) i, State.setLife, State.desc_setDesc_same]
      rfl
    · rw [State.setLife, State.desc_setDesc_same]
      rfl

/-! ### The buffer posted (R63, R64) -/

/-- An HPI is written where a state has the ports of another but for one HPI of another port. -/
theorem State.complete_setHpi {u : State} {q : Port} {tag : Tag} {kind : ReqKind} (hqp : q ≠ p)
    (h : u.hasRequest p tag kind) (g : Hpi) (v : Vals) :
    (u.setHpi q g).complete p tag code v =
      (u.setHpi p ((u.hpi p).afterCompletion tag kind code v u.stamp)).setHpi q g := by
  have hkept : (u.setHpi q g).hpi p = u.hpi p := u.hpi_setHpi_ne g hqp
  rw [State.complete_eq _ p tag kind code v (h.of_hpi hkept), hkept, State.stamp_setHpi, State.setHpi_comm _ hqp]

/-- A notice written under a condition, as an update of the HPI in either case. -/
theorem State.notice_if {u : State} {q : Port} {kind : NoticeKind} {v : Vals} (c : Bool) :
    (if c = true then u.notice q kind v else u) =
      u.setHpi q (if c = true then (u.hpi q).afterNotice kind v u.stamp else u.hpi q) := by
  cases c
  · exact (State.setHpi_self u q).symm
  · exact State.notice_eq ..

theorem State.postBuffer_queued {i : DescIx} (hreq : s.hasRequest p r.tag .post) (hends : a.params.consumer ≠ p)
    (hw : a.takeWaits = []) :
    let v : Vals := { channel := chanField r.chan, v0 := a.nextSequence }
    s.postBuffer p r i b a =
      (((s.setHpi p ((s.hpi p).afterCompletion r.tag .post .done v s.stamp)).setHpi a.params.consumer
        (if a.forward.isEmpty = true then (s.hpi a.params.consumer).afterNotice .arrival v s.stamp
          else s.hpi a.params.consumer)).setChan r.chan
          (.active { a with nextSequence := a.nextSequence + 1#16, forward := a.forward ++ [i] })).setDesc i
            ⟨(s.desc i).generation, .queued b (postedTraffic r a.nextSequence)⟩ := by
  unfold State.postBuffer
  rw [hw]
  dsimp only
  rw [State.notice_if, State.complete_setHpi (kind := .post) hends]
  · rfl
  · exact hreq

theorem State.postBuffer_delivered {i : DescIx} {w : Wait} {ws : List Wait} (hreq : s.hasRequest p r.tag .post)
    (hends : a.params.consumer ≠ p) (hw : a.takeWaits = w :: ws) (htake : s.hasRequest a.params.consumer w.tag .take) :
    s.postBuffer p r i b a =
      (((s.setHpi p ((s.hpi p).afterCompletion r.tag .post .done
        { channel := chanField r.chan, v0 := a.nextSequence, v1 := 1#16 } s.stamp)).setHpi a.params.consumer
          ((s.hpi a.params.consumer).afterCompletion w.tag .take .done
            (s.takeVals i b (postedTraffic r a.nextSequence) a.params.producer) s.stamp)).setChan r.chan
          (.active { a with nextSequence := a.nextSequence + 1#16, takeWaits := ws })).setDesc i
            ⟨(s.desc i).generation, .held b (postedTraffic r a.nextSequence) a.params.consumer
              (holdTimer a.params.holdLimit) 0⟩ := by
  unfold State.postBuffer
  rw [hw]
  dsimp only [State.deliver]
  rw [State.complete_complete_eq (j := .take) (k := .post) hends]
  · rfl
  · exact htake
  · exact hreq

end

/-- Settles O52, check by check. -/
theorem postChecksInOrder : Obligations.PostChecksInOrder := by
  intro s p r h
  have hrefuse {code : ResultCode} (hfail : firstFail (s.postChecks p r) = some code) :
      exec (.post p) s = .next (s.refuseOnChannel p r code) := by rw [h.exec_post, settlePost_refused hfail]
  refine ⟨fun hr => h.refused_outOfRange hr (hrefuse (code := .badRequest) ?_), fun k hr => ?_⟩
  · refine firstFail_append_of_some ?_ _
    rw [State.firstFail_handleChecks, Request.channelBad_of_ge hr, Bool.or_true, if_pos rfl]
  intro d extent refused accepted
  have hchecks := State.firstFail_postChecks (s := s) (p := p) hr
  have hrefused {code : ResultCode} (hfail : firstFail (s.postChecks p r) = some code) : refused code :=
    h.refused_named hr (hrefuse hfail)
  have hextent : d.extent = extent := Nat.mul_comm _ _
  rw [State.firstFail_handleChecks, show handleBad r.handle = r.handle.getLsbD 7 from rfl] at hchecks
  simp only [List.mem_singleton] at hchecks
  by_cases hbad : r.handle.getLsbD 7 = true
  · rw [if_pos hbad] at hchecks ⊢
    exact hrefused hchecks
  rw [if_neg hbad] at hchecks ⊢
  by_cases hstale : s.stale r.handle = true
  · rw [if_pos hstale] at hchecks ⊢
    exact hrefused hchecks
  rw [if_neg hstale] at hchecks ⊢
  by_cases hholder : d.holder ≠ some p
  · rw [if_pos hholder] at hchecks ⊢
    exact hrefused hchecks
  rw [if_neg hholder] at hchecks ⊢
  by_cases hstate : d.state ≠ .filling
  · rw [if_pos hstate] at hchecks ⊢
    exact hrefused hchecks
  rw [if_neg hstate] at hchecks ⊢
  rw [Option.none_or] at hchecks
  cases hm : (s.chan k).params? with
  | none => exact hrefused (hchecks.trans (if_pos (by rw [Chan.producedBy, hm]; rfl)))
  | some m =>
    have hproduced : (s.chan k).producedBy p = false ↔ m.producer ≠ p := by simp [Chan.producedBy, hm]
    have hfits : postedBad r d.extent ((s.chan k).isKind .roundTrip) = false ↔ r.postFits extent (m.kind = .roundTrip) := by
      rw [postedBad_eq_false_iff, hextent, Chan.isKind, hm]; simp
    simp only [hproduced, hm, Option.elim_some] at hchecks
    dsimp only
    by_cases hprod : m.producer ≠ p
    · rw [if_pos hprod] at hchecks ⊢
      exact hrefused hchecks
    rw [if_neg hprod] at hchecks ⊢
    by_cases hopen : (s.chan k).state ≠ .opened
    · rw [if_pos hopen] at hchecks ⊢
      exact hrefused hchecks
    rw [if_neg hopen] at hchecks ⊢
    by_cases hfull : m.depthLimit ≤ s.inTransit k
    · rw [if_pos hfull] at hchecks ⊢
      exact hrefused hchecks
    rw [if_neg hfull] at hchecks ⊢
    have htaken (hpost : r.postFits extent (m.kind = .roundTrip)) : accepted := by
      obtain ⟨a, ha, -⟩ := Chan.active_of_opened (not_not.1 hopen) hm
      obtain ⟨b, hb⟩ := Desc.filling_buf (not_not.1 hstate)
      rw [hfits.2 hpost] at hchecks
      exact ⟨_, h.exec_post.trans (congrArg _ (settlePost_accepted rfl (Request.chan_of_eq hr) hchecks hb ha)), by
        rw [State.postBuffer_traffic]; exact Option.some_ne_none _⟩
    have hunfit (hpost : ¬r.postFits extent (m.kind = .roundTrip)) : refused .range :=
      hrefused (hchecks.trans (if_pos (by rwa [← Bool.not_eq_false, hfits])))
    split_ifs with hlong hzero hreply
    · exact hunfit fun hpost => absurd hpost.1 (by omega)
    · exact htaken ⟨by omega, .inl hzero⟩
    · exact htaken ⟨by omega, .inr hreply⟩
    · exact hunfit fun hpost => hpost.2.elim hzero hreply

/-- Settles O53: the checks pass, and the buffer is queued or delivered. -/
theorem postMovesTheBuffer : Obligations.PostMovesTheBuffer := by
  intro s p r k a b h hpass hr ha hprod hends hopen hdepth hb hlen hreply i q tr v
  have hextent : (s.desc i).extent = 256 * b.blocks.length := by
    rw [Desc.extent, Desc.blockCount, Desc.blockList, Desc.buf, hb, Nat.mul_comm]
  have hfits : postedBad r (s.desc i).extent ((s.chan k).isKind .roundTrip) = false := by
    rw [postedBad_eq_false_iff, hextent, ha]
    exact ⟨hlen, by simpa [Chan.isKind, Chan.params?] using hreply⟩
  have hchecks : firstFail (s.postChecks p r) = none := by
    rw [State.firstFail_postChecks hr, hpass.checks, Option.none_or, hfits, if_neg (by simp [Chan.producedBy, Chan.params?, ha, hprod]),
      if_neg (not_not.2 hopen), if_neg (by rw [ha]; exact Nat.not_le.2 hdepth), if_neg Bool.false_ne_true]
  have hexec : exec (.post p) s = .next (s.postBuffer p r i b a) :=
    h.exec_post.trans (congrArg _ (settlePost_accepted rfl (Request.chan_of_eq hr) hchecks hb ha))
  have htraffic : postedTraffic r a.nextSequence = tr := by rw [postedTraffic, Request.chan_of_eq hr]; rfl
  rw [hexec]
  refine ⟨fun hw => congrArg _ ?_, fun w ws hw htake => congrArg _ ?_⟩
  · rw [State.postBuffer_queued h.hasRequest hends hw, htraffic, Request.chan_of_eq hr]
    simp only [List.isEmpty_iff]
    rfl
  · rw [State.postBuffer_delivered h.hasRequest hends hw htake, htraffic, Request.chan_of_eq hr, hprod]
    rfl

end Sys2Proof.Machine

/-!
PROOFS. TAKE and RENEW (R66 to R68, R91).
-/

namespace Sys2Proof.Machine

section
variable {s : State} {p : Port} {r : Request} {k : ChanIx} {a : Active} {b : Buf} {code : ResultCode} {x : Chan}

/-! ### The ends of a channel -/

theorem Chan.consumedBy_eq_false_iff : x.consumedBy p = false ↔ ∀ m, x.params? = some m → m.consumer ≠ p := by
  cases h : x.params? <;> simp [Chan.consumedBy, h]

theorem Chan.producedBy_eq_false_iff : x.producedBy p = false ↔ ∀ m, x.params? = some m → m.producer ≠ p := by
  cases h : x.params? <;> simp [Chan.producedBy, h]

/-! ### TAKE -/

/-- The checks of a TAKE after that of its range (R66). -/
theorem State.firstFail_takeChecks (hr : r.channel.toNat = k.val) :
    firstFail (s.takeChecks p r) =
      if (s.chan k).consumedBy p = false then some .notEndpoint
      else if (s.chan k).active?.elim true (·.closedConsumer) = true then some .noChannel else none := by
  simp only [State.takeChecks, firstFail, Request.channelBad_of_eq hr, Request.chan_of_eq hr, Bool.false_eq_true, if_false,
    Bool.not_eq_true']

/-- The checks pass for the consumer of an end that is open. -/
theorem State.takeChecks_pass (hr : r.channel.toNat = k.val) (ha : s.chan k = .active a) (hp : a.params.consumer = p)
    (hopen : a.closedConsumer = false) : firstFail (s.takeChecks p r) = none := by
  rw [State.firstFail_takeChecks hr, ha, if_neg (by simp [Chan.consumedBy, Chan.params?, hp]),
    if_neg (by simp [Chan.active?, hopen])]

theorem settleTake_empty (hr : r.channel.toNat = k.val) (ha : s.chan k = .active a)
    (h : firstFail (s.takeChecks p r) = none) (hempty : a.forward = []) : settleTake r p s = s.takeEmpty p r a := by
  have hact : (s.chan r.chan).active? = some a := by rw [Request.chan_of_eq hr, ha]; rfl
  simp only [settleTake, h, hact, hempty]

theorem settleTake_head {i : DescIx} {rest : List DescIx} {tr : Traffic} (hr : r.channel.toNat = k.val)
    (ha : s.chan k = .active a) (h : firstFail (s.takeChecks p r) = none) (hhead : a.forward = i :: rest)
    (hi : (s.desc i).life = .queued b tr) :
    settleTake r p s = (s.setChan k (.active { a with forward := rest })).deliver a.params r.tag i b tr := by
  have hact : (s.chan r.chan).active? = some a := by rw [Request.chan_of_eq hr, ha]; rfl
  simp only [settleTake, h, hact, hhead, hi]
  rw [Request.chan_of_eq hr]

/-! ### RENEW -/

theorem State.handlePasses_held {tr : Traffic} {timer : Option Timer} {n : Nat} (hbad : handleBad r.handle = false)
    (hstale : s.stale r.handle = false) (hi : (s.desc (handleIx r.handle)).life = .held b tr p timer n) :
    s.handlePasses p r [.held] :=
  ⟨hbad, hstale, by rw [Desc.holder, hi], by rw [Desc.state, hi]; exact List.mem_singleton.2 rfl⟩

/-- RENEW of a HELD buffer, by the hold limit and the renew limit of its channel (R91). -/
theorem settleRenew_held {tr : Traffic} {timer : Option Timer} {n : Nat} (hpass : s.handlePasses p r [.held])
    (hi : (s.desc (handleIx r.handle)).life = .held b tr p timer n) (ha : s.chan tr.channel = .active a) :
    settleRenew r p s =
      if a.params.holdLimit = 0 then s.complete p r.tag .done (renewVals r 0#16 n)
      else if n < a.params.renewLimit then
        (s.setLife (handleIx r.handle) (.held b tr p (some (.running a.params.holdLimit)) (n + 1))).complete p r.tag .done
          (renewVals r (word a.params.holdLimit) (n + 1))
      else s.renewRefused p r timer n := by
  simp only [settleRenew, hpass.checks, hi, ha, Chan.params?, Option.elim_some]
  cases a.params.holdLimit with
  | zero => rfl
  | succ limit =>
    rw [if_neg (Nat.succ_ne_zero limit)]
    rfl

end

/-- Settles O54: the refusals, the rows of an empty queue, and the head taken. -/
theorem takeSettled : Obligations.TakeSettled := by
  intro s p r h
  have hrefuse {code : ResultCode} (hfail : firstFail (s.takeChecks p r) = some code) :
      exec (.take p) s = .next (s.refuseOnChannel p r code) := by rw [h.exec_take, settleTake_refused hfail]
  refine ⟨fun hr => h.refused_outOfRange hr (hrefuse (code := .badRequest) ?_), fun k hr => ?_⟩
  · rw [State.takeChecks, Request.channelBad_of_ge hr]
    rfl
  intro v ends
  have hrefused {code : ResultCode} (hfail : firstFail (s.takeChecks p r) = some code) : ends code :=
    h.refused_named hr (hrefuse hfail)
  have hchecks := State.firstFail_takeChecks (s := s) (p := p) hr
  refine ⟨fun hend => ?_, fun m tag timer hm hp => ?_, fun a ha hp => ⟨fun hclosed => ?_, fun hopen hempty => ?_,
    fun i rest b tr hopen hhead hi => ?_⟩⟩
  · exact hrefused (hchecks.trans (if_pos (Chan.consumedBy_eq_false_iff.2 hend)))
  · refine hrefused (hchecks.trans ?_)
    rw [hm, if_neg (by simp [Chan.consumedBy, Chan.params?, hp])]
    rfl
  · refine hrefused (hchecks.trans ?_)
    rw [ha, if_neg (by simp [Chan.consumedBy, Chan.params?, hp]), if_pos (by simp [Chan.active?, hclosed])]
  · have hexec : exec (.take p) s = .next (s.takeEmpty p r a) :=
      h.exec_take.trans (congrArg _ (settleTake_empty hr ha (State.takeChecks_pass hr ha hp hopen) hempty))
    unfold State.takeEmpty at hexec
    rw [Request.chan_of_eq hr] at hexec
    refine ⟨fun hclosed => ?_, fun hopen' hlimit => ?_, fun hopen' hlimit => ?_⟩
    · exact h.completes (hexec.trans (by rw [if_pos hclosed]; rfl))
    · exact h.completes (hexec.trans (by rw [if_neg (by simp [hopen']), if_pos hlimit]; rfl))
    · rw [hexec, if_neg (by simp [hopen']), if_neg hlimit, State.leaveOutstanding_eq, waitTimer_eq]
      rfl
  · rw [h.exec_take, settleTake_head hr ha (State.takeChecks_pass hr ha hp hopen) hhead hi, State.deliver, hp]
    refine (congrArg Host.Outcome.next (State.complete_of_ports h.hasRequest ?_ ?_ _ _)).trans ?_
    all_goals rfl

/-- Settles O58, by the rows of the table of RENEW. -/
theorem renewRestartsTheHold : Obligations.RenewRestartsTheHold := by
  intro s p r h i ends v
  have hrefused {code : ResultCode}
      (hfail : firstFail (s.handleChecks p r.handle (handleBad r.handle) [.held]) = some code) : ends code v :=
    h.completes (h.exec_renew.trans (congrArg _ (settleRenew_refused hfail)))
  have hchecks := s.firstFail_handleChecks p r.handle (handleBad r.handle) [.held]
  refine ⟨fun hbad => ?_, fun hbad hstale => ?_, fun hbad hstale hholder => ?_, fun hbad hstale hholder hstate => ?_,
    fun b tr timer n a hbad hstale hi ha => ?_⟩
  · exact hrefused (hchecks.trans (if_pos hbad))
  · exact hrefused (hchecks.trans (by rw [hbad, hstale]; rfl))
  · exact hrefused (hchecks.trans (by rw [hbad, hstale, if_neg Bool.false_ne_true, if_neg Bool.false_ne_true, if_pos hholder]))
  · refine hrefused (hchecks.trans ?_)
    rw [hbad, hstale, if_neg Bool.false_ne_true, if_neg Bool.false_ne_true, if_neg (not_not.2 hholder),
      if_pos (by simpa using hstate)]
  · have hexec := h.exec_renew.trans
      (congrArg Host.Outcome.next (settleRenew_held (State.handlePasses_held hbad hstale hi) hi ha))
    refine ⟨fun hnone => ?_, fun hlimit hn => ?_, fun left hlimit hn htimer => ?_, fun hlimit hn htimer => ?_⟩
    · exact h.completes (hexec.trans (by rw [if_pos hnone]; rfl))
    · rw [hexec, if_neg (by omega), if_pos hn]
      refine (congrArg Host.Outcome.next (State.complete_of_ports h.hasRequest ?_ ?_ _ _)).trans ?_
      all_goals rfl
    · exact h.completes (hexec.trans (by rw [if_neg (by omega), if_neg (by omega), htimer]; rfl))
    · refine ⟨s.freeValue, hexec.trans ?_⟩
      rw [if_neg (by omega), if_neg (by omega), htimer]
      exact congrArg _ (State.complete_of_ports (u := s.drawn) h.hasRequest rfl rfl ..)

end Sys2Proof.Machine

/-!
PROOFS. The in-transit count of one channel, the unbinding of a drained channel, and COLLECT and RELEASE (R56, R71, R78 to
R80).
-/

namespace Sys2Proof.Machine

/-! ### The in-transit count under a change of one descriptor -/

/-- A count over a list without repetitions changes with the one member on which the predicates differ. -/
theorem List.countP_flip {α : Type} [DecidableEq α] {l : List α} (hl : l.Nodup) {i : α} (hi : i ∈ l) {f g : α → Bool}
    (h : ∀ j, j ≠ i → f j = g j) : l.countP f + flag (g i) = l.countP g + flag (f i) := by
  have hrest : (l.erase i).countP f = (l.erase i).countP g :=
    List.countP_congr fun j hj => by rw [h j ((hl.mem_erase_iff.1 hj).1)]
  have hperm := List.perm_cons_erase hi
  rw [hperm.countP_eq f, hperm.countP_eq g, List.countP_cons, List.countP_cons, hrest, flag, flag]
  omega

section
variable {s t u : State} {p : Port} {r : Request} {i : DescIx} {k : ChanIx} {a : Active}

theorem State.heldCount_eq (s : State) (k : ChanIx) :
    s.heldCount k = (List.finRange 128).countP (fun j => (s.desc j).heldOn k) := by
  rw [State.heldCount, s.descs_toList, List.countP_map]
  rfl

theorem State.otherDescs.heldCount (h : s.otherDescs t i) :
    t.heldCount k + flag ((s.desc i).heldOn k) = s.heldCount k + flag ((t.desc i).heldOn k) := by
  rw [State.heldCount_eq, State.heldCount_eq]
  exact List.countP_flip (f := fun j => (t.desc j).heldOn k) (g := fun j => (s.desc j).heldOn k) (List.nodup_finRange 128)
    (List.mem_finRange i) fun j hj => by rw [h j hj]

theorem State.inTransit_active (ha : s.chan k = .active a) :
    s.inTransit k = a.forward.length + s.heldCount k + a.returns.length := by
  simp only [State.inTransit, State.forwardCount, State.returnCount, ha, Chan.active?]

/-- The count of a channel whose queues stay and one of whose HELD descriptors leaves. -/
theorem State.otherDescs.heldCount_leaves (h : s.otherDescs t i) (hi : (s.desc i).heldOn k = true)
    (ht : (t.desc i).heldOn k = false) : t.heldCount k + 1 = s.heldCount k := by
  have := h.heldCount (k := k)
  rwa [hi, ht] at this

/-- The count of a channel none of whose HELD descriptors changes. -/
theorem State.otherDescs.heldCount_stays (h : s.otherDescs t i) (hi : (s.desc i).heldOn k = false)
    (ht : (t.desc i).heldOn k = false) : t.heldCount k = s.heldCount k := by
  have := h.heldCount (k := k)
  rwa [hi, ht] at this

theorem State.becameFree_held {b : Buf} {tr : Traffic} {timer : Option Timer} {n : Nat} {q : Port}
    (hi : (s.desc i).life = .held b tr q timer n) (hn : b.blocks.Nodup) : s.becameFree (s.freeDesc i) i :=
  s.becameFree_freeDesc i (by simp [Desc.state, hi]) (by simpa [Desc.blockList, Desc.buf, hi] using hn)

theorem State.becameFree.otherDescs (h : s.becameFree t i) : s.otherDescs t i := h.2.1

theorem State.becameFree.heldOn (h : s.becameFree t i) : (t.desc i).heldOn k = false := by
  rw [h.1]
  rfl

theorem State.setDesc_setChan (s : State) (i : DescIx) (d : Desc) (k : ChanIx) (x : Chan) :
    (s.setDesc i d).setChan k x = (s.setChan k x).setDesc i d := rfl

theorem State.heldCount_of_descs (h : t.descs = s.descs) : t.heldCount k = s.heldCount k := by
  rw [State.heldCount, State.heldCount, h]

/-! ### Unbinding (R56) -/

/-- Unbinding: the waiting COLLECTs of the producer complete CLOSED, and each end receives CHANNEL_UNBOUND. -/
theorem State.unbind_active (ha : s.chan k = .active a) (hends : a.params.consumer ≠ a.params.producer)
    (hreq : ∀ w ∈ a.collectWaits, s.hasRequest a.params.producer w.tag .collect)
    (hnodup : (a.collectWaits.map Wait.tag).Nodup) :
    s.unbind k =
      ((s.setHpi a.params.producer (((s.hpi a.params.producer).afterAll a.collectWaits .collect .closed
        { channel := BitVec.ofNat 4 k.val } s.stamp).afterNotice .channelUnbound { channel := BitVec.ofNat 4 k.val }
          s.stamp)).setHpi a.params.consumer ((s.hpi a.params.consumer).afterNotice .channelUnbound
            { channel := BitVec.ofNat 4 k.val } s.stamp)).setChan k .unbound := by
  simp only [State.unbind, ha, Chan.active?]
  rw [State.completeAll_eq _ s a.params.producer .collect .closed _ hreq hnodup, State.notice_eq, State.notice_eq]
  simp only [State.setChan_setHpi, State.hpi_setChan, State.stamp_setChan, State.setHpi_setHpi, State.hpi_setHpi_same,
    State.stamp_setHpi, State.hpi_setHpi_ne s _ hends.symm]
  rfl

/-- The same with no COLLECT waiting. -/
theorem State.unbind_quiet (ha : s.chan k = .active a) (hends : a.params.consumer ≠ a.params.producer)
    (hnone : a.collectWaits = []) :
    s.unbind k =
      ((s.setHpi a.params.producer ((s.hpi a.params.producer).afterNotice .channelUnbound
        { channel := BitVec.ofNat 4 k.val } s.stamp)).setHpi a.params.consumer
          ((s.hpi a.params.consumer).afterNotice .channelUnbound
            { channel := BitVec.ofNat 4 k.val } s.stamp)).setChan k .unbound := by
  rw [State.unbind_active ha hends (by simp [hnone]) (by simp [hnone]), hnone]
  rfl

theorem State.unbindIfDrained_stays (h : (s.chan k).state ≠ .closing ∨ s.inTransit k ≠ 0) : s.unbindIfDrained k = s := by
  unfold State.unbindIfDrained
  rw [if_neg (by simpa [imp_iff_not_or] using h)]

theorem State.unbindIfDrained_unbinds (hc : (s.chan k).state = .closing) (hn : s.inTransit k = 0) :
    s.unbindIfDrained k = s.unbind k := by
  unfold State.unbindIfDrained
  rw [if_pos (by simp [hc, hn])]

/-- Whether a channel goes on depends on its closed flags and its in-transit count alone, here one less than before. -/
theorem State.goesOn.stays (h : s.goesOn k) (hc : (t.chan k).state = (s.chan k).state)
    (hn : t.inTransit k + 1 = s.inTransit k) : t.unbindIfDrained k = t :=
  State.unbindIfDrained_stays (h.imp (fun h => hc ▸ h) fun h => by omega)

/-! ### COLLECT (R78 to R80) -/

/-- The checks of a COLLECT after that of its range (R78). -/
theorem State.firstFail_collectChecks (hr : r.channel.toNat = k.val) :
    firstFail (s.collectChecks p r) =
      if (s.chan k).producedBy p = false then some .notEndpoint
      else if (s.chan k).active? = none then some .noChannel
      else if (s.chan k).isKind .roundTrip = false then some .wrongKind else none := by
  simp only [State.collectChecks, firstFail, Request.channelBad_of_eq hr, Request.chan_of_eq hr, Bool.false_eq_true,
    if_false, Bool.not_eq_true', Option.isNone_iff_eq_none]

/-- What remains to be checked of a COLLECT by the producer of a bound channel. -/
theorem State.firstFail_collectChecks_producer (hr : r.channel.toNat = k.val) (ha : s.chan k = .active a)
    (hp : a.params.producer = p) :
    firstFail (s.collectChecks p r) = if a.params.kind = .roundTrip then none else some .wrongKind := by
  rw [State.firstFail_collectChecks hr, ha, if_neg (by simp [Chan.producedBy, Chan.params?, hp]),
    if_neg (by simp [Chan.active?])]
  by_cases h : a.params.kind = .roundTrip <;> simp [Chan.isKind, Chan.params?, h]

theorem settleCollect_empty (hr : r.channel.toNat = k.val) (ha : s.chan k = .active a)
    (h : firstFail (s.collectChecks p r) = none) (hempty : a.returns = []) :
    settleCollect r p s =
      if r.limit = 0#16 then s.complete p r.tag .empty { channel := chanField k }
      else (s.setChan k (.active { a with collectWaits := a.collectWaits ++ [⟨r.tag, waitTimer r.limit⟩] })).leaveOutstanding
        p r.tag .waiting := by
  have hact : (s.chan r.chan).active? = some a := by rw [Request.chan_of_eq hr, ha]; rfl
  simp only [settleCollect, h, hact, hempty]
  rw [Request.chan_of_eq hr]

theorem settleCollect_head {rest : List DescIx} {b : Buf} {tr : Traffic} {c : Came} (hr : r.channel.toNat = k.val)
    (ha : s.chan k = .active a) (h : firstFail (s.collectChecks p r) = none) (hhead : a.returns = i :: rest)
    (hi : (s.desc i).life = .returning b tr c) :
    settleCollect r p s =
      (((s.setChan k (.active { a with returns := rest })).setLife i (.collected b tr c)).complete p r.tag .done
        (s.collectVals i b tr c)).unbindIfDrained k := by
  have hact : (s.chan r.chan).active? = some a := by rw [Request.chan_of_eq hr, ha]; rfl
  simp only [settleCollect, h, hact, hhead, State.collectHead, hi]
  rw [Request.chan_of_eq hr]

/-! ### RELEASE (R71) -/

/-- A RELEASE or a RETURN of a HELD buffer is refused for the wrong kind of channel alone (R71, R75). -/
theorem State.firstFail_giveUpChecks {b : Buf} {tr : Traffic} {timer : Option Timer} {n : Nat}
    (hbad : handleBad r.handle = false) (hstale : s.stale r.handle = false)
    (hi : (s.desc (handleIx r.handle)).life = .held b tr p timer n) (ha : s.chan tr.channel = .active a) (wrong : ChanKind) :
    firstFail (s.giveUpChecks p r wrong) = if a.params.kind = wrong then some .wrongKind else none := by
  rw [State.giveUpChecks, firstFail_append_of_none (State.handlePasses_held hbad hstale hi).checks]
  simp only [firstFail, Desc.traffic, hi, Option.any_some, ha, Chan.isKind, Chan.params?, decide_eq_true_eq]

theorem settleRelease_freed {tr : Traffic} (h : firstFail (s.giveUpChecks p r .roundTrip) = none)
    (htr : (s.desc (handleIx r.handle)).traffic = some tr) (hreq : s.hasRequest p r.tag .release) :
    settleRelease r p s =
      ((s.freeDesc (handleIx r.handle)).setHpi p ((s.hpi p).afterCompletion r.tag .release .done
        { channel := BitVec.ofNat 4 tr.channel.val, v0 := tr.sequence } s.stamp)).unbindIfDrained tr.channel := by
  simp only [settleRelease, h, htr]
  rw [State.complete_of_ports hreq (s.freeDesc_ports _) (s.freeDesc_ticks _)]
  rfl

/-- A HELD descriptor that is freed leaves the count of its channel. -/
theorem State.freeDesc_inTransit {b : Buf} {tr : Traffic} {timer : Option Timer} {n : Nat} {q : Port}
    (hi : (s.desc i).life = .held b tr q timer n) (ha : s.chan tr.channel = .active a) (hn : b.blocks.Nodup) :
    (s.freeDesc i).inTransit tr.channel + 1 = s.inTransit tr.channel := by
  have hfreed := State.becameFree_held hi hn
  have hcount := hfreed.otherDescs.heldCount_leaves (Desc.heldOn_iff.2 ⟨_, _, _, _, _, hi, rfl⟩) hfreed.heldOn
  have hchan : (s.freeDesc i).chan tr.channel = .active a := by rw [State.chan, s.freeDesc_chans]; exact ha
  rw [State.inTransit_active hchan, State.inTransit_active ha]
  omega

end

/-- Settles O55: the refusals, the rows of an empty queue, and the head collected, with and without an unbinding. -/
theorem collectSettled : Obligations.CollectSettled := by
  intro s p r h
  have hrefuse {code : ResultCode} (hfail : firstFail (s.collectChecks p r) = some code) :
      exec (.collect p) s = .next (s.refuseOnChannel p r code) := by rw [h.exec_collect, settleCollect_refused hfail]
  refine ⟨fun hr => h.refused_outOfRange hr (hrefuse (code := .badRequest) ?_), fun k hr => ?_⟩
  · rw [State.collectChecks, Request.channelBad_of_ge hr]
    rfl
  intro v ends
  have hrefused {code : ResultCode} (hfail : firstFail (s.collectChecks p r) = some code) : ends code :=
    h.refused_named hr (hrefuse hfail)
  refine ⟨fun hend => ?_, fun m tag timer hm hp => ?_, fun a ha hp => ⟨fun hkind => ?_, fun hkind hempty => ?_,
    fun i rest b tr c hkind hhead hi => ?_⟩⟩
  · exact hrefused ((State.firstFail_collectChecks hr).trans (if_pos (Chan.producedBy_eq_false_iff.2 hend)))
  · refine hrefused ((State.firstFail_collectChecks hr).trans ?_)
    rw [hm, if_neg (by simp [Chan.producedBy, Chan.params?, hp])]
    rfl
  · refine hrefused ((State.firstFail_collectChecks_producer hr ha hp).trans ?_)
    rw [hkind]
    rfl
  · have hexec := h.exec_collect.trans (congrArg Host.Outcome.next (settleCollect_empty hr ha
      ((State.firstFail_collectChecks_producer hr ha hp).trans (if_pos hkind)) hempty))
    refine ⟨fun hlimit => h.completes (hexec.trans (by rw [if_pos hlimit]; rfl)), fun hlimit => ?_⟩
    rw [hexec, if_neg hlimit, State.leaveOutstanding_eq, waitTimer_eq]
    rfl
  · intro done collected
    have hexec := h.exec_collect.trans (congrArg Host.Outcome.next (settleCollect_head hr ha
      ((State.firstFail_collectChecks_producer hr ha hp).trans (if_pos hkind)) hhead hi))
    have hdone : ((s.setChan k (.active { a with returns := rest })).setLife i (.collected b tr c)).complete p r.tag .done
        (s.collectVals i b tr c) = ((s.setHpi p done).setChan k (.active { a with returns := rest })).setDesc i collected := by
      refine (State.complete_of_ports h.hasRequest ?_ ?_ _ _).trans ?_
      all_goals rfl
    rw [hdone] at hexec
    have hdescs : s.otherDescs (((s.setHpi p done).setChan k (.active { a with returns := rest })).setDesc i collected) i :=
      fun j hj => State.desc_setDesc_ne _ _ (Ne.symm hj)
    have hchan : (((s.setHpi p done).setChan k (.active { a with returns := rest })).setDesc i collected).chan k =
        .active { a with returns := rest } := by simp
    have hcount := State.otherDescs.heldCount_stays (k := k) hdescs (by simp [Desc.heldOn, Desc.state, hi])
      (by simp [Desc.heldOn, Desc.state, collected])
    have htransit : (((s.setHpi p done).setChan k (.active { a with returns := rest })).setDesc i collected).inTransit k + 1 =
        s.inTransit k := by
      rw [State.inTransit_active hchan, State.inTransit_active ha, hcount, hhead]
      simp only [List.length_cons]
      omega
    refine ⟨fun hgoes => ?_, fun hclosing hlast hquiet hends => ?_⟩
    · rw [hexec, hgoes.stays (by rw [hchan, ha]; rfl) htransit]
    · rw [hexec, State.unbindIfDrained_unbinds (by rw [hchan, ← hclosing, ha]; rfl) (by omega),
        State.unbind_quiet hchan (by simpa [hp] using hends) hquiet]
      simp only [hp, State.setDesc_setHpi, State.setChan_setHpi, State.hpi_setDesc, State.hpi_setChan, State.hpi_setHpi_same,
        State.hpi_setHpi_ne s _ hends.symm, State.setHpi_setHpi, State.stamp_setDesc, State.stamp_setChan, State.stamp_setHpi,
        State.setDesc_setChan, State.setChan_setChan]
      rfl

/-- Settles O56: the refusal of the wrong kind, and the buffer freed with and without an unbinding. -/
theorem releaseFreesTheBuffer : Obligations.ReleaseFreesTheBuffer := by
  intro s p r b tr timer n a h hbad hstale hi ha i k v done
  have hchecks := State.firstFail_giveUpChecks hbad hstale hi ha .roundTrip
  have hexec (hkind : a.params.kind = .oneWay) :
      exec (.release p) s = .next (((s.freeDesc i).setHpi p done).unbindIfDrained k) :=
    h.exec_release.trans (congrArg _ (settleRelease_freed (hchecks.trans (if_neg (by simp [hkind])))
      (by rw [Desc.traffic, hi]) h.hasRequest))
  have hchan : ((s.freeDesc i).setHpi p done).chan k = .active a := by
    rw [State.chan_setHpi, State.chan, s.freeDesc_chans]; exact ha
  have htransit (hn : b.blocks.Nodup) : ((s.freeDesc i).setHpi p done).inTransit k + 1 = s.inTransit k :=
    State.freeDesc_inTransit hi ha hn
  obtain ⟨d, x, f, y, m, hframe⟩ := s.freeDesc_frame i
  refine ⟨fun hkind => ?_, fun hkind hn hgoes => ⟨_, hexec hkind, ?_⟩, fun hkind hn hclosing hlast hquiet hp hends =>
    ⟨_, hexec hkind, ?_⟩⟩
  · exact h.completes (h.exec_release.trans (congrArg _ (settleRelease_refused (hchecks.trans (if_pos hkind)))))
  · rw [State.goesOn.stays (t := (s.freeDesc i).setHpi p done) hgoes (by rw [hchan, ha]) (htransit hn)]
    refine ⟨(State.becameFree_held hi hn).setHpi p done, ?_⟩
    rw [hframe]
    rfl
  · have hcount := htransit hn
    rw [State.unbindIfDrained_unbinds (by rw [hchan, ← hclosing, ha]) (by omega),
      State.unbind_quiet hchan (by rw [hp]; exact hends.symm) hquiet]
    refine ⟨State.becameFree_held hi hn, ?_⟩
    simp only [hp, State.hpi_setHpi_same, State.hpi_setHpi_ne _ _ hends.symm,
      State.stamp_setHpi]
    rw [State.setHpi_comm _ hends, State.setHpi_setHpi, hframe]
    rfl

end Sys2Proof.Machine

/-!
PROOFS. A buffer that leaves its consumer (R56, R73, R74): RETURN, the expiry of a hold timer and the reclaim walk.
-/

namespace Sys2Proof.Machine

/-- What the producer of channel `a` is told as descriptor `i` leaves the consumer, before any unbinding (R73, R74). -/
def State.toldOfLeaving (s : State) (i : DescIx) (b : Buf) (tr : Traffic) (a : Active) (came : Came) : Hpi :=
  match s.givesBack a, a.collectWaits with
  | false, _ => s.hpi a.params.producer
  | true, [] =>
    if a.returns = [] then
      (s.hpi a.params.producer).afterNotice .returnArrival { channel := BitVec.ofNat 4 tr.channel.val } s.stamp
    else s.hpi a.params.producer
  | true, w :: _ =>
    (s.hpi a.params.producer).afterCompletion w.tag .collect .done (s.collectVals i b tr came) s.stamp

/-- `u` is `s` once HELD descriptor `i` has left its consumer, before any unbinding: `State.leaves` in the case in which the
channel stays. -/
structure State.left (s u : State) (i : DescIx) (b : Buf) (tr : Traffic) (a : Active) (came : Came) (own : Hpi) : Prop where
  chan : u.chan tr.channel = .active (a.afterLeaving i (s.givesBack a))
  chans : s.otherChans u tr.channel
  consumer : u.hpi a.params.consumer = own
  producer : u.hpi a.params.producer = s.toldOfLeaving i b tr a came
  others : ∀ x : Port, x ≠ a.params.consumer → x ≠ a.params.producer → u.hpi x = s.hpi x
  back : s.givesBack a = true →
    u.desc i = ⟨(s.desc i).generation, if a.collectWaits = [] then .returning b tr came else .collected b tr came⟩ ∧
      s.otherDescs u i ∧ u = { s with ports := u.ports, chans := u.chans, descs := u.descs }
  freed : s.givesBack a = false →
    s.becameFree u i ∧
      u = { s with
        ports := u.ports, chans := u.chans, descs := u.descs, blocks := u.blocks, freeList := u.freeList,
        retired := u.retired, reexamsDue := u.reexamsDue }

section
variable {s u : State} {i : DescIx} {b : Buf} {tr : Traffic} {a : Active} {came : Came} {own : Hpi} {q : Port}
  {timer : Option Timer} {n : Nat}

/-! ### The channel once the buffer has left -/

theorem Active.afterLeaving_nil (hw : a.collectWaits = []) :
    a.afterLeaving i true = { a with returns := a.returns ++ [i] } := by
  simp only [Active.afterLeaving, hw]

theorem Active.afterLeaving_cons {w : Wait} {ws : List Wait} (hw : a.collectWaits = w :: ws) :
    a.afterLeaving i true = { a with collectWaits := ws } := by
  simp only [Active.afterLeaving, hw]

theorem State.toldOfLeaving_freed (hback : s.givesBack a = false) :
    s.toldOfLeaving i b tr a came = s.hpi a.params.producer := by
  simp only [State.toldOfLeaving, hback]

theorem State.toldOfLeaving_nil (hback : s.givesBack a = true) (hw : a.collectWaits = []) :
    s.toldOfLeaving i b tr a came = if a.returns = [] then
      (s.hpi a.params.producer).afterNotice .returnArrival { channel := BitVec.ofNat 4 tr.channel.val } s.stamp
    else s.hpi a.params.producer := by
  simp only [State.toldOfLeaving, hback, hw]

theorem State.toldOfLeaving_cons {w : Wait} {ws : List Wait} (hback : s.givesBack a = true) (hw : a.collectWaits = w :: ws) :
    s.toldOfLeaving i b tr a came =
      (s.hpi a.params.producer).afterCompletion w.tag .collect .done (s.collectVals i b tr came) s.stamp := by
  simp only [State.toldOfLeaving, hback, hw]

theorem Active.afterLeaving_params (back : Bool) : (a.afterLeaving i back).params = a.params := by
  unfold Active.afterLeaving
  split <;> rfl

theorem Active.afterLeaving_state (back : Bool) :
    (Chan.active (a.afterLeaving i back)).state = (Chan.active a).state := by
  unfold Active.afterLeaving
  split <;> rfl

/-- The buffers in the queues of the channel: one more where it joins the return queue. -/
theorem Active.afterLeaving_queues (back : Bool) :
    (a.afterLeaving i back).forward.length + (a.afterLeaving i back).returns.length =
      a.forward.length + a.returns.length + flag (back && a.collectWaits.isEmpty) := by
  cases back with
  | false => rfl
  | true => cases hw : a.collectWaits <;> simp [Active.afterLeaving, hw, flag] ; omega

/-- The COLLECTs still waiting are the last ones of those that waited. -/
theorem Active.afterLeaving_waits (back : Bool) : (a.afterLeaving i back).collectWaits <:+ a.collectWaits := by
  cases back with
  | false => exact List.suffix_refl _
  | true => cases hw : a.collectWaits <;> simp [Active.afterLeaving, hw]

/-! ### The two ways to leave -/

/-- The buffer is freed (R71, R77, R93). -/
theorem State.left_freed (hi : (s.desc i).life = .held b tr q timer n) (ha : s.chan tr.channel = .active a)
    (hn : b.blocks.Nodup) (hback : s.givesBack a = false) :
    s.left (s.freeDesc i) i b tr a came (s.hpi a.params.consumer) where
  chan := by
    rw [State.chan, s.freeDesc_chans, hback]
    exact ha
  chans := fun d _ => by rw [State.chan, s.freeDesc_chans]; rfl
  consumer := s.freeDesc_hpi i _
  producer := by
    rw [s.freeDesc_hpi, State.toldOfLeaving, hback]
  others := fun x _ _ => s.freeDesc_hpi i x
  back := fun h => absurd (hback.symm.trans h) Bool.false_ne_true
  freed := fun _ => by
    refine ⟨State.becameFree_held hi hn, ?_⟩
    obtain ⟨d, x, f, y, m, h⟩ := s.freeDesc_frame i
    rw [h]

theorem State.noticeReturns_active {c : ChanIx} (ha : s.chan c = .active a) (wasEmpty : Bool) :
    s.noticeReturns c wasEmpty =
      s.setHpi a.params.producer (if (wasEmpty && !a.returns.isEmpty) = true then
        (s.hpi a.params.producer).afterNotice .returnArrival { channel := BitVec.ofNat 4 c.val } s.stamp
      else s.hpi a.params.producer) := by
  rw [State.noticeReturns, ha]
  exact State.notice_if _

/-- The buffer joins the tail of the return queue (R73, R74). -/
theorem State.comeBack_returned (ha : s.chan tr.channel = .active a) (hw : a.collectWaits = []) :
    s.comeBack i b tr came =
      ((s.setHpi a.params.producer (if a.returns = [] then (s.hpi a.params.producer).afterNotice .returnArrival
        { channel := BitVec.ofNat 4 tr.channel.val } s.stamp else s.hpi a.params.producer)).setChan tr.channel
          (.active { a with returns := a.returns ++ [i] })).setDesc i ⟨(s.desc i).generation, .returning b tr came⟩ := by
  have hempty : (s.returnCount tr.channel == 0) = a.returns.isEmpty := by
    simp only [State.returnCount, ha, Chan.active?]
    cases a.returns <;> rfl
  rw [State.comeBack, State.arrive_returned ha hw,
    State.noticeReturns_active (a := { a with returns := a.returns ++ [i] }) (by simp), hempty]
  have hgrown : (a.returns.isEmpty && !(a.returns ++ [i]).isEmpty) = true ↔ a.returns = [] := by simp
  simp only [hgrown]
  rfl

/-- The buffer goes to the oldest waiting COLLECT (R73). -/
theorem State.comeBack_collected {w : Wait} {ws : List Wait} (ha : s.chan tr.channel = .active a)
    (hw : a.collectWaits = w :: ws) (hreq : s.hasRequest a.params.producer w.tag .collect) :
    s.comeBack i b tr came =
      ((s.setHpi a.params.producer ((s.hpi a.params.producer).afterCompletion w.tag .collect .done
        (s.collectVals i b tr came) s.stamp)).setChan tr.channel (.active { a with collectWaits := ws })).setDesc i
          ⟨(s.desc i).generation, .collected b tr came⟩ := by
  have hempty : (s.returnCount tr.channel == 0) = a.returns.isEmpty := by
    simp only [State.returnCount, ha, Chan.active?]
    cases a.returns <;> rfl
  have harrive : s.arrive tr.channel i b tr came =
      ((s.setHpi a.params.producer ((s.hpi a.params.producer).afterCompletion w.tag .collect .done
        (s.collectVals i b tr came) s.stamp)).setChan tr.channel (.active { a with collectWaits := ws })).setDesc i
          ⟨(s.desc i).generation, .collected b tr came⟩ := by
    rw [State.arrive_collected ha hw]
    refine (State.complete_of_ports hreq ?_ ?_ _ _).trans ?_
    all_goals rfl
  rw [State.comeBack, harrive, State.noticeReturns_active (a := { a with collectWaits := ws }) (by simp), hempty]
  dsimp only
  rw [Bool.and_not_self, if_neg Bool.false_ne_true, State.setHpi_self]

/-- The buffer comes back to the producer (R73, R74). -/
theorem State.comeBack_eq (ha : s.chan tr.channel = .active a) (hback : s.givesBack a = true)
    (hreq : ∀ w ∈ a.collectWaits, s.hasRequest a.params.producer w.tag .collect) :
    s.comeBack i b tr came =
      ((s.setHpi a.params.producer (s.toldOfLeaving i b tr a came)).setChan tr.channel
        (.active (a.afterLeaving i true))).setDesc i ⟨(s.desc i).generation,
          if a.collectWaits = [] then .returning b tr came else .collected b tr came⟩ := by
  cases hw : a.collectWaits with
  | nil => rw [State.comeBack_returned ha hw, State.toldOfLeaving_nil hback hw, Active.afterLeaving_nil hw, if_pos rfl, hw]
  | cons w ws =>
    rw [State.comeBack_collected ha hw (hreq w (by simp [hw])), State.toldOfLeaving_cons hback hw,
      Active.afterLeaving_cons hw, if_neg (List.cons_ne_nil w ws)]

theorem State.left_back (ha : s.chan tr.channel = .active a) (hends : a.params.producer ≠ a.params.consumer)
    (hreq : ∀ w ∈ a.collectWaits, s.hasRequest a.params.producer w.tag .collect) (hback : s.givesBack a = true) :
    s.left (s.comeBack i b tr came) i b tr a came (s.hpi a.params.consumer) := by
  rw [State.comeBack_eq ha hback hreq]
  exact {
    chan := by simp [hback]
    chans := fun d hd => by simp [State.chan_setChan_ne _ _ hd.symm]
    consumer := by simp [State.hpi_setHpi_ne _ _ hends]
    producer := by simp
    others := fun x _ hx => by simp [State.hpi_setHpi_ne _ _ hx.symm]
    back := fun _ => ⟨State.desc_setDesc_same .., fun j hj => State.desc_setDesc_ne _ _ hj.symm, rfl⟩
    freed := fun h => absurd (hback.symm.trans h) (by decide) }

theorem State.comesBack_eq {c : ChanIx} (ha : s.chan c = .active a) : s.comesBack c = s.givesBack a := by
  rw [Bool.eq_iff_iff, State.comesBack_active ha, State.givesBack, Bool.and_eq_true, decide_eq_true_eq]

/-- A HELD buffer leaves its consumer in one way or the other. -/
theorem State.left_held (hi : (s.desc i).life = .held b tr q timer n) (ha : s.chan tr.channel = .active a)
    (hends : a.params.producer ≠ a.params.consumer) (hn : b.blocks.Nodup)
    (hreq : ∀ w ∈ a.collectWaits, s.hasRequest a.params.producer w.tag .collect) :
    s.left (if s.comesBack tr.channel = true then s.comeBack i b tr came else s.freeDesc i) i b tr a came
      (s.hpi a.params.consumer) := by
  rw [State.comesBack_eq ha]
  cases hback : s.givesBack a with
  | true => exact State.left_back ha hends hreq hback
  | false => exact State.left_freed hi ha hn hback

/-- What the event writes to the consumer stands in its HPI alone. -/
theorem State.left.setOwn (h : s.left u i b tr a came own) (hends : a.params.producer ≠ a.params.consumer) (own' : Hpi) :
    s.left (u.setHpi a.params.consumer own') i b tr a came own' where
  chan := h.chan
  chans := h.chans
  consumer := State.hpi_setHpi_same ..
  producer := by rw [State.hpi_setHpi_ne _ _ hends.symm, h.producer]
  others := fun x hp hq => by rw [State.hpi_setHpi_ne _ _ hp.symm, h.others x hp hq]
  back := fun hb => by
    obtain ⟨hi, hothers, hrest⟩ := h.back hb
    exact ⟨hi, hothers, congrArg (fun w : State => w.setHpi a.params.consumer own') hrest⟩
  freed := fun hb => by
    obtain ⟨hfreed, hrest⟩ := h.freed hb
    exact ⟨hfreed, congrArg (fun w : State => w.setHpi a.params.consumer own') hrest⟩

/-! ### The unbinding that may follow (R56) -/

theorem State.left.ticks (h : s.left u i b tr a came own) : u.ticks = s.ticks := by
  cases hb : s.givesBack a with
  | true => rw [(h.back hb).2.2]
  | false => rw [(h.freed hb).2]

theorem State.left.stamp (h : s.left u i b tr a came own) : u.stamp = s.stamp := by
  rw [State.stamp, h.ticks]
  rfl

theorem State.left.otherDescs (h : s.left u i b tr a came own) : s.otherDescs u i := by
  cases hb : s.givesBack a with
  | true => exact (h.back hb).2.1
  | false => exact (h.freed hb).1.otherDescs

theorem State.left.heldOn (h : s.left u i b tr a came own) {k : ChanIx} : (u.desc i).heldOn k = false := by
  cases hb : s.givesBack a with
  | true =>
    rw [(h.back hb).1]
    split <;> rfl
  | false => exact (h.freed hb).1.heldOn

/-- The buffer leaves the count of its channel unless it joins the return queue. -/
theorem State.left.inTransit (h : s.left u i b tr a came own) (hi : (s.desc i).life = .held b tr q timer n)
    (ha : s.chan tr.channel = .active a) :
    u.inTransit tr.channel + 1 = s.inTransit tr.channel + flag (s.givesBack a && a.collectWaits.isEmpty) := by
  have hcount := h.otherDescs.heldCount_leaves (Desc.heldOn_iff.2 ⟨_, _, _, _, _, hi, rfl⟩) h.heldOn
  have hqueues := Active.afterLeaving_queues (i := i) (a := a) (s.givesBack a)
  rw [State.inTransit_active h.chan, State.inTransit_active ha]
  omega

/-- The channel drains exactly where the buffer was its last one and did not join the return queue (R56). -/
theorem State.left.drains_iff (h : s.left u i b tr a came own) (hi : (s.desc i).life = .held b tr q timer n)
    (ha : s.chan tr.channel = .active a) :
    (u.chan tr.channel).state = .closing ∧ u.inTransit tr.channel = 0 ↔
      s.lastLeaves tr.channel a (s.givesBack a) = true := by
  have hcount := h.inTransit hi ha
  have hheld : 0 < s.heldCount tr.channel := by
    have := h.otherDescs.heldCount_leaves (Desc.heldOn_iff.2 ⟨_, _, _, _, _, hi, rfl⟩) h.heldOn
    omega
  have hpos : 0 < s.inTransit tr.channel := by rw [State.inTransit_active ha]; omega
  rw [h.chan, Active.afterLeaving_state, ← ha]
  rw [State.lastLeaves, Bool.and_eq_true, decide_eq_true_eq, and_assoc]
  refine and_congr_right fun _ => ?_
  cases hb : s.givesBack a && a.collectWaits.isEmpty with
  | true =>
    rw [hb, flag, if_pos rfl] at hcount
    have : (!s.givesBack a || !a.collectWaits.isEmpty) = false := by rw [← Bool.not_and, hb]; rfl
    rw [this]
    simp only [Bool.false_eq_true, and_false, iff_false]
    omega
  | false =>
    rw [hb, flag, if_neg Bool.false_ne_true] at hcount
    have : (!s.givesBack a || !a.collectWaits.isEmpty) = true := by rw [← Bool.not_and, hb]; rfl
    rw [this]
    simp only [and_true]
    omega

/-- The COLLECTs still waiting are outstanding once the oldest one has been served. -/
theorem State.left.hasRequests (h : s.left u i b tr a came own)
    (hreq : ∀ w ∈ a.collectWaits, s.hasRequest a.params.producer w.tag .collect) (hn : (a.collectWaits.map Wait.tag).Nodup) :
    ∀ w ∈ (a.afterLeaving i (s.givesBack a)).collectWaits, u.hasRequest a.params.producer w.tag .collect := by
  intro w hw
  have hmem := hreq w ((Active.afterLeaving_waits _).subset hw)
  cases hb : s.givesBack a with
  | false => exact hmem.of_hpi (h.producer.trans (State.toldOfLeaving_freed hb))
  | true =>
    rw [hb] at hw
    cases hws : a.collectWaits with
    | nil => simp [Active.afterLeaving_nil hws, hws] at hw
    | cons x ws =>
      rw [hws] at hn
      rw [Active.afterLeaving_cons hws] at hw
      have hne : w.tag ≠ x.tag := fun e => (List.nodup_cons.1 hn).1 (e ▸ List.mem_map_of_mem hw)
      have hafter := hmem.after (k := .collect) hne .done (s.collectVals i b tr came) s.stamp
      exact hafter.of_hpi ((h.producer.trans (State.toldOfLeaving_cons hb hws)).trans (State.hpi_setHpi_same ..).symm)

/-- Where the channel is drained it unbinds; elsewhere nothing follows. -/
theorem State.left.leaves (h : s.left u i b tr a came own) (hi : (s.desc i).life = .held b tr q timer n)
    (ha : s.chan tr.channel = .active a) (hends : a.params.producer ≠ a.params.consumer)
    (hreq : ∀ w ∈ a.collectWaits, s.hasRequest a.params.producer w.tag .collect)
    (hn : (a.collectWaits.map Wait.tag).Nodup) :
    s.leaves (u.unbindIfDrained tr.channel) i b tr a came own := by
  have hdrains := h.drains_iff hi ha
  cases hlast : s.lastLeaves tr.channel a (s.givesBack a) with
  | false =>
    rw [hlast] at hdrains
    have hstays : u.unbindIfDrained tr.channel = u :=
      State.unbindIfDrained_stays (not_and_or.1 fun hd => Bool.false_ne_true (hdrains.1 hd))
    rw [hstays, State.leaves]
    simp only [hlast, Bool.false_eq_true, if_false]
    exact ⟨h.chan, h.chans, h.consumer, h.producer, h.others, h.back, h.freed⟩
  | true =>
    obtain ⟨hclosing, hzero⟩ := hdrains.2 hlast
    have hnodup := hn.sublist ((Active.afterLeaving_waits (i := i) (a := a) (s.givesBack a)).sublist.map Wait.tag)
    have hparams := Active.afterLeaving_params (i := i) (a := a) (s.givesBack a)
    have hunbind := State.unbind_active h.chan (by rw [hparams]; exact hends.symm)
      (by rw [hparams]; exact h.hasRequests hreq hn) hnodup
    rw [hparams, h.producer, h.consumer, h.stamp] at hunbind
    rw [State.unbindIfDrained_unbinds hclosing hzero, hunbind, State.leaves]
    simp only [hlast, if_true]
    refine ⟨State.chan_setChan_same .., fun d hd => ?_, ?_, ?_, fun x hp hq => ?_, fun hb => ?_, fun hb => ?_⟩
    · rw [State.chan_setChan_ne _ _ hd.symm]
      exact h.chans d hd
    · rw [State.hpi_setChan, State.hpi_setHpi_same]
    · rw [State.hpi_setChan, State.hpi_setHpi_ne _ _ hends.symm, State.hpi_setHpi_same]
      rfl
    · rw [State.hpi_setChan, State.hpi_setHpi_ne _ _ hp.symm, State.hpi_setHpi_ne _ _ hq.symm, h.others x hp hq]
    · obtain ⟨hlife, hothers, hrest⟩ := h.back hb
      exact ⟨hlife, hothers, congrArg (fun w : State => ((w.setHpi _ _).setHpi _ _).setChan _ _) hrest⟩
    · obtain ⟨hfreed, hrest⟩ := h.freed hb
      exact ⟨hfreed, congrArg (fun w : State => ((w.setHpi _ _).setHpi _ _).setChan _ _) hrest⟩

end

end Sys2Proof.Machine

/-!
PROOFS. RETURN, the expiry of a hold timer and the reclaim walk (R75 to R77, R92 to R94, R168).
-/

namespace Sys2Proof.Machine

section
variable {s u : State} {p : Port} {r : Request} {i : DescIx} {b : Buf} {tr : Traffic} {a : Active} {timer : Option Timer}
  {n : Nat}

/-! ### RETURN -/

/-- The checks of a RETURN of a HELD buffer (R75). -/
theorem State.firstFail_returnChecks (hbad : handleBad r.handle = false) (hstale : s.stale r.handle = false)
    (hi : (s.desc (handleIx r.handle)).life = .held b tr p timer n) (ha : s.chan tr.channel = .active a) :
    firstFail (s.returnChecks p r) =
      if a.params.kind = .oneWay then some .wrongKind
      else if tr.replyBytes < r.length.toNat then some .range else none := by
  have hgive := State.firstFail_giveUpChecks hbad hstale hi ha .oneWay
  rw [State.returnChecks, firstFail_append, hgive]
  by_cases hkind : a.params.kind = .oneWay
  · rw [if_pos hkind, if_pos hkind]
    rfl
  · rw [if_neg hkind, if_neg hkind, Option.none_or]
    simp only [firstFail, Desc.traffic, hi, Option.elim_some, decide_eq_true_eq]

theorem Traffic.replyBytes_eq (tr : Traffic) :
    tr.replyBytes = match tr.reply with
      | none => 0
      | some (o, c) => c - o := by
  cases h : tr.reply <;> simp [Traffic.replyBytes, h]

theorem settleReturn_given (h : firstFail (s.returnChecks p r) = none)
    (hi : (s.desc (handleIx r.handle)).life = .held b tr p timer n) :
    settleReturn r p s = s.giveBack p r (handleIx r.handle) b tr := by
  simp only [settleReturn, h, hi]

theorem State.left.hasRequest {came : Came} {tag : Tag} {k : ReqKind} (h : s.left u i b tr a came (s.hpi p))
    (hp : a.params.consumer = p) (hreq : s.hasRequest p tag k) : u.hasRequest p tag k :=
  hreq.of_hpi (hp ▸ h.consumer)

/-- The completion of the RETURN stands ahead of what the unbinding writes (R76, R77). -/
theorem State.giveBack_leaves (hi : (s.desc i).life = .held b tr p timer n) (ha : s.chan tr.channel = .active a)
    (hp : a.params.consumer = p) (hends : a.params.producer ≠ p) (hb : b.blocks.Nodup)
    (hreq : s.hasRequest p r.tag .returnBuffer)
    (hwaits : ∀ w ∈ a.collectWaits, s.hasRequest a.params.producer w.tag .collect) (hn : (a.collectWaits.map Wait.tag).Nodup) :
    s.leaves (s.giveBack p r i b tr) i b tr a ⟨.replied, some r.length.toNat⟩
      ((s.hpi p).afterCompletion r.tag .returnBuffer .done
        { channel := BitVec.ofNat 4 tr.channel.val, v0 := tr.sequence, v1 := field 0 1 (flag !s.givesBack a) } s.stamp) := by
  subst hp
  have hleft := State.left_held (came := ⟨.replied, some r.length.toNat⟩) hi ha hends hb hwaits
  have hown := hleft.setOwn hends ((s.hpi a.params.consumer).afterCompletion r.tag .returnBuffer .done
    { channel := BitVec.ofNat 4 tr.channel.val, v0 := tr.sequence, v1 := field 0 1 (flag !s.givesBack a) } s.stamp)
  have hgive : s.giveBack a.params.consumer r i b tr =
      ((if s.comesBack tr.channel = true then s.comeBack i b tr ⟨.replied, some r.length.toNat⟩
        else s.freeDesc i).setHpi a.params.consumer ((s.hpi a.params.consumer).afterCompletion r.tag .returnBuffer .done
          { channel := BitVec.ofNat 4 tr.channel.val, v0 := tr.sequence, v1 := field 0 1 (flag !s.givesBack a) }
            s.stamp)).unbindIfDrained tr.channel := by
    rw [← hleft.consumer, ← hleft.stamp, ← State.complete_eq _ _ _ .returnBuffer _ _ (hleft.hasRequest rfl hreq),
      ← State.comesBack_eq ha]
    unfold State.giveBack
    cases s.comesBack tr.channel <;> rfl
  rw [hgive]
  exact hown.leaves hi ha hends hwaits hn

/-! ### The expiry of a hold timer, and the walk -/

theorem State.revoke_held {q : Port} (hi : (s.desc i).life = .held b tr q timer n) (byExpiry : Bool) :
    s.revoke i byExpiry =
      (if byExpiry = true then
        (if s.comesBack tr.channel = true then s.comeBack i b tr ⟨.revoked, none⟩ else s.freeDesc i).notice q .revoked
          { channel := chanField tr.channel, v0 := s.handle i, v1 := tr.sequence }
      else if s.comesBack tr.channel = true then s.comeBack i b tr ⟨.revoked, none⟩
      else s.freeDesc i).unbindIfDrained tr.channel := by
  simp only [State.revoke, hi]

theorem State.revoke_leaves (hi : (s.desc i).life = .held b tr p timer n) (ha : s.chan tr.channel = .active a)
    (hp : a.params.consumer = p) (hends : a.params.producer ≠ p) (hb : b.blocks.Nodup)
    (hwaits : ∀ w ∈ a.collectWaits, s.hasRequest a.params.producer w.tag .collect) (hn : (a.collectWaits.map Wait.tag).Nodup)
    (byExpiry : Bool) :
    s.leaves (s.revoke i byExpiry) i b tr a ⟨.revoked, none⟩
      (if byExpiry = true then (s.hpi p).afterNotice .revoked
        { channel := BitVec.ofNat 4 tr.channel.val, v0 := s.handle i, v1 := tr.sequence } s.stamp else s.hpi p) := by
  subst hp
  have hleft := State.left_held (came := ⟨.revoked, none⟩) hi ha hends hb hwaits
  rw [State.revoke_held hi, State.notice_if, hleft.consumer, hleft.stamp]
  exact (hleft.setOwn hends _).leaves hi ha hends hwaits hn

/-- A port that is not ONLINE receives no notice, so that what it holds may be written behind the unbinding. -/
theorem State.leaves.setOffline {t : State} {came : Came} {own own' : Hpi} (h : s.leaves t i b tr a came own)
    (hends : a.params.producer ≠ a.params.consumer) (hoff : own'.state ≠ .online) :
    s.leaves (t.setHpi a.params.consumer own') i b tr a came own' ∧
      (t.setHpi a.params.consumer own').hpi a.params.consumer = own' := by
  have hquiet : own'.afterNotice .channelUnbound { channel := BitVec.ofNat 4 tr.channel.val } s.stamp = own' :=
    if_neg hoff
  obtain ⟨hchan, hchans, -, hproducer, hothers, hback, hfreed⟩ := h
  refine ⟨⟨hchan, hchans, ?_, ?_, fun x hx hq => ?_, fun hb => ?_, fun hb => ?_⟩, State.hpi_setHpi_same ..⟩
  · rw [State.hpi_setHpi_same, hquiet, ite_self]
  · rw [State.hpi_setHpi_ne _ _ hends.symm]
    exact hproducer
  · rw [State.hpi_setHpi_ne _ _ hx.symm, hothers x hx hq]
  · obtain ⟨hlife, hrest, heq⟩ := hback hb
    exact ⟨hlife, hrest, congrArg (fun w : State => w.setHpi a.params.consumer own') heq⟩
  · obtain ⟨hlife, heq⟩ := hfreed hb
    exact ⟨hlife, congrArg (fun w : State => w.setHpi a.params.consumer own') heq⟩

end

/-- Settles O57: the refusals, and the buffer given back. -/
theorem returnGivesTheBufferBack : Obligations.ReturnGivesTheBufferBack := by
  intro s p r b tr timer n a h hbad hstale hi ha i room refused v
  have hchecks := State.firstFail_returnChecks hbad hstale hi ha
  rw [Traffic.replyBytes_eq] at hchecks
  have hrefused {code : ResultCode} (hfail : firstFail (s.returnChecks p r) = some code) : refused code :=
    h.completes (h.exec_return.trans (congrArg _ (settleReturn_refused hfail)))
  refine ⟨fun hkind => hrefused (hchecks.trans (if_pos hkind)), fun hkind hlong => ?_,
    fun hkind hfits hp hends hb hwaits hn => ⟨_, h.exec_return, ?_⟩⟩
  · exact hrefused (hchecks.trans (by rw [if_neg (by simp [hkind])]; exact if_pos hlong))
  · rw [settleReturn_given (hchecks.trans (by rw [if_neg (by simp [hkind])]; exact if_neg (Nat.not_lt.2 hfits))) hi]
    have hgone : field 0 1 (flag !s.givesBack a) = if s.online a.params.producer then 0#16 else 1#16 := by
      rw [State.givesBack, hkind]
      cases s.online a.params.producer <;> rfl
    rw [← hgone]
    exact State.giveBack_leaves hi ha hp hends hb h.hasRequest hwaits hn

/-- Settles O60: an expiry revokes a HELD buffer whose timer has run out, and nothing else. -/
theorem holdExpiryRevokes : Obligations.HoldExpiryRevokes := by
  intro s i
  refine ⟨fun hnone => congrArg Host.Outcome.next ?_, fun b tr p n a hi ha hp hends hb hwaits hn => ⟨s.revoke i true, ?_, ?_⟩⟩
  · unfold State.expireHold
    split
    next b tr p n hi => exact absurd hi (hnone b tr p n)
    all_goals rfl
  · refine congrArg Host.Outcome.next ?_
    simp only [State.expireHold, hi]
  · exact State.revoke_leaves hi ha hp hends hb hwaits hn true

/-- The state the walk moves to behind descriptor `i` (R168). -/
def walkNext (i : DescIx) : PortState := if h : i.val < 127 then .reclaiming ⟨i.val + 1, by omega⟩ else .offline

theorem walkNext_ne_online (i : DescIx) : walkNext i ≠ .online := by
  unfold walkNext
  split <;> nofun

theorem State.walkStep_next {s : State} {p : Port} {i : DescIx} (h : (s.hpi p).state = .reclaiming i) :
    s.walkStep p = (s.walkAt p i).setHpi p { (s.walkAt p i).hpi p with state := walkNext i } := by
  have hnext : (if h : i.val + 1 < 128 then PortState.reclaiming ⟨i.val + 1, h⟩ else .offline) = walkNext i := by
    unfold walkNext
    by_cases hi : i.val < 127
    · rw [dif_pos hi, dif_pos (by omega)]
    · rw [dif_neg hi, dif_neg (by omega)]
  rw [State.walkStep_eq h, hnext]

/-- Settles O35, by what stands at the descriptor the walk reaches. -/
theorem reclaimWalkStep : Obligations.ReclaimWalkStep := by
  intro s p
  refine ⟨fun i hi => ?_, fun hidle => congrArg Host.Outcome.next ?_⟩
  · intro next
    have hexec : exec (.reclaimWalkStep p) s = .next (s.walkStep p) := rfl
    rw [hexec, State.walkStep_next hi]
    refine ⟨fun hholder => ?_, fun hholder hstate hn => ⟨_, rfl, ?_⟩, fun b tr timer n hl a ha hp hends hb hwaits hn =>
      ⟨_, rfl, ?_⟩⟩
    · rw [State.walkAt, if_neg hholder]
      rfl
    · have hwalk : s.walkAt p i = s.freeDesc i := by
        rw [State.walkAt, if_pos hholder]
        cases hl : (s.desc i).life <;> simp_all [Desc.state, Desc.holder]
      have hfree : (s.desc i).state ≠ .free := fun hf => by
        cases hl : (s.desc i).life <;> simp_all [Desc.state, Desc.holder]
      rw [hwalk, s.freeDesc_hpi]
      refine ⟨(s.becameFree_freeDesc i hfree hn).setHpi p _, ?_⟩
      obtain ⟨d, x, f, y, m, hframe⟩ := s.freeDesc_frame i
      rw [hframe]
      rfl
    · have hwalk : s.walkAt p i = s.revoke i false := by
        simp only [State.walkAt, Desc.holder, Desc.state, hl, if_true]
      have hleaves := State.revoke_leaves hl ha hp hends hb hwaits hn false
      rw [if_neg Bool.false_ne_true] at hleaves
      have hoff : (s.hpi p).state ≠ .online := by rw [hi]; nofun
      have hkept : (s.revoke i false).hpi p = s.hpi p := by
        have hconsumer := hleaves.2.2.1
        rw [hp] at hconsumer
        exact hconsumer.trans (by rw [Hpi.afterNotice, if_neg hoff, ite_self])
      rw [hwalk, hkept]
      subst hp
      exact hleaves.setOffline hends (walkNext_ne_online i)
  · unfold State.walkStep
    split
    next i hi => exact absurd hi (hidle i)
    all_goals rfl

end Sys2Proof.Machine

/-!
PROOFS. CLOSE: its checks, and a close by the producer (R51, R52, R56).
-/

namespace Sys2Proof.Machine

section
variable {s : State} {p : Port} {r : Request} {k : ChanIx} {a : Active}

/-! ### The checks of a CLOSE (R51) -/

theorem State.firstFail_closeChecks (hr : r.channel.toNat = k.val) :
    firstFail (s.closeChecks p r) =
      if (s.chan k).producedBy p = false ∧ (s.chan k).consumedBy p = false then some .notEndpoint
      else if (s.chan k).state = .offered then some .noChannel else none := by
  simp only [State.closeChecks, firstFail, Request.channelBad_of_eq hr, Request.chan_of_eq hr, Bool.false_eq_true, if_false,
    Bool.and_eq_true, Bool.not_eq_true', beq_iff_eq]

/-- The checks pass for an end of a channel that is OPEN or CLOSING. -/
theorem State.closeChecks_pass (hr : r.channel.toNat = k.val) (ha : s.chan k = .active a)
    (hp : a.params.producer = p ∨ a.params.consumer = p) : firstFail (s.closeChecks p r) = none := by
  have hend : ¬((s.chan k).producedBy p = false ∧ (s.chan k).consumedBy p = false) := by
    rw [ha]
    simp only [Bool.eq_false_iff, ne_eq, Chan.producedBy_active, Chan.consumedBy_active]
    tauto
  have hstate : (s.chan k).state ≠ .offered := by
    rw [ha, Chan.state]
    split <;> nofun
  rw [State.firstFail_closeChecks hr, if_neg hend, if_neg hstate]

/-! ### The end of a CLOSE (R51, R56) -/

theorem settleClose_closed (hr : r.channel.toNat = k.val) (ha : s.chan k = .active a)
    (hp : a.params.producer = p ∨ a.params.consumer = p) (hclosed : a.closedBy p = true) :
    settleClose r p s = s.complete p r.tag .done { channel := chanField k } := by
  have hact : (s.chan r.chan).active? = some a := by rw [Request.chan_of_eq hr, ha]; rfl
  simp only [settleClose, State.closeChecks_pass hr ha hp, hact, hclosed, if_true]
  rw [Request.chan_of_eq hr]

/-- The values of the completion of a CLOSE (R51). -/
def closeVals (k : ChanIx) (bounced : Nat) (drained : Bool) : Vals :=
  { channel := chanField k, v0 := word bounced, v1 := field 0 1 (flag drained) }

/-- A CLOSE that leaves a buffer in transit: the other end receives CHANNEL_CLOSING. -/
theorem settleClose_stays (hr : r.channel.toNat = k.val) (ha : s.chan k = .active a)
    (hp : a.params.producer = p ∨ a.params.consumer = p) (hopen : a.closedBy p = false)
    (hbusy : (s.closeBy p k).inTransit k ≠ 0) :
    settleClose r p s =
      ((s.closeBy p k).complete p r.tag .done (closeVals k (a.bounced p) false)).notice (a.params.other p) .channelClosing
        { channel := chanField k, v0 := word (portCode p) } := by
  have hact : (s.chan r.chan).active? = some a := by rw [Request.chan_of_eq hr, ha]; rfl
  simp only [settleClose, State.closeChecks_pass hr ha hp, hact, hopen, Bool.false_eq_true, if_false]
  rw [Request.chan_of_eq hr, beq_false_of_ne hbusy]
  rfl

/-- A CLOSE that leaves nothing in transit: the channel unbinds. -/
theorem settleClose_unbinds (hr : r.channel.toNat = k.val) (ha : s.chan k = .active a)
    (hp : a.params.producer = p ∨ a.params.consumer = p) (hopen : a.closedBy p = false)
    (hdrained : (s.closeBy p k).inTransit k = 0) :
    settleClose r p s =
      ((s.closeBy p k).complete p r.tag .done (closeVals k (a.bounced p) true)).unbind k := by
  have hact : (s.chan r.chan).active? = some a := by rw [Request.chan_of_eq hr, ha]; rfl
  simp only [settleClose, State.closeChecks_pass hr ha hp, hact, hopen, Bool.false_eq_true, if_false]
  rw [Request.chan_of_eq hr, hdrained]
  rfl

/-- Unbinding behind what the event has written to the two ends. -/
theorem State.unbind_setEnds {x y : Hpi} (hends : a.params.consumer ≠ a.params.producer)
    (hreq : ∀ w ∈ a.collectWaits, (s.setHpi a.params.producer x).hasRequest a.params.producer w.tag .collect)
    (hn : (a.collectWaits.map Wait.tag).Nodup) :
    (((s.setHpi a.params.producer x).setHpi a.params.consumer y).setChan k (.active a)).unbind k =
      ((s.setHpi a.params.producer ((x.afterAll a.collectWaits .collect .closed { channel := BitVec.ofNat 4 k.val }
        s.stamp).afterNotice .channelUnbound { channel := BitVec.ofNat 4 k.val } s.stamp)).setHpi a.params.consumer
          (y.afterNotice .channelUnbound { channel := BitVec.ofNat 4 k.val } s.stamp)).setChan k .unbound := by
  have hkept : (((s.setHpi a.params.producer x).setHpi a.params.consumer y).setChan k (.active a)).hpi a.params.producer =
      (s.setHpi a.params.producer x).hpi a.params.producer :=
    State.hpi_setHpi_ne _ _ hends
  rw [State.unbind_active (State.chan_setChan_same ..) hends (fun w hw => (hreq w hw).of_hpi hkept) hn, hkept]
  simp only [State.setChan_setHpi, State.hpi_setChan, State.hpi_setHpi_same, State.stamp_setChan, State.stamp_setHpi,
    State.setChan_setChan]
  rw [State.setHpi_comm _ hends, State.setHpi_setHpi, State.setHpi_setHpi]

/-! ### A close by the producer (R52) -/

/-- The flag is set, and the waiting TAKEs of the consumer complete CLOSED. -/
theorem State.closeBy_producer (ha : s.chan k = .active a) (hp : a.params.producer = p)
    (htakes : ∀ w ∈ a.takeWaits, s.hasRequest a.params.consumer w.tag .take) (hn : (a.takeWaits.map Wait.tag).Nodup) :
    s.closeBy p k =
      (s.setHpi a.params.consumer ((s.hpi a.params.consumer).afterAll a.takeWaits .take .closed
        { channel := BitVec.ofNat 4 k.val } s.stamp)).setChan k (.active { a with closedProducer := true, takeWaits := [] }) := by
  simp only [State.closeBy, ha, Chan.active?, if_pos hp, State.producerClose, State.chan_setChan_same,
    State.setChan_setChan]
  rw [State.completeAll_eq _ _ _ .take]
  · rfl
  · exact htakes
  · exact hn

theorem State.closeBy_producer_inTransit (ha : s.chan k = .active a) (h : Hpi) (q : Port) :
    ((s.setHpi q h).setChan k (.active { a with closedProducer := true, takeWaits := [] })).inTransit k = s.inTransit k := by
  rw [State.inTransit_active (State.chan_setChan_same ..), State.inTransit_active ha]
  rfl

end

/-- Settles O50: the refusals, an end that is closed already, and the close with and without an unbinding. -/
theorem closeByTheProducer : Obligations.CloseByTheProducer := by
  intro s p r h refused
  have hrefused {code : ResultCode} (hfail : firstFail (s.closeChecks p r) = some code) : refused code :=
    h.completes (h.exec_close.trans (congrArg _ (settleClose_refused hfail)))
  refine ⟨fun hr => hrefused (code := .badRequest) ?_, fun k hr => ?_⟩
  · rw [State.closeChecks, Request.channelBad_of_ge hr]
    rfl
  intro v
  refine ⟨fun hend => ?_, fun m tag timer hm hp => ?_, fun a ha hp hclosed => ?_, fun a ha hp hends hopen htakes hn hcollects
    hn' => ?_⟩
  · exact hrefused ((State.firstFail_closeChecks hr).trans (if_pos
      ⟨Chan.producedBy_eq_false_iff.2 fun m hm => (hend m hm).1, Chan.consumedBy_eq_false_iff.2 fun m hm => (hend m hm).2⟩))
  · refine hrefused ((State.firstFail_closeChecks hr).trans ?_)
    rw [hm, if_neg (by simp [Chan.producedBy, Chan.consumedBy, Chan.params?]; tauto)]
    rfl
  · exact h.completes (h.exec_close.trans (congrArg _ (settleClose_closed hr ha hp hclosed)))
  · intro q told
    have hclose := State.closeBy_producer (p := p) ha hp htakes hn
    have hcount : (s.closeBy p k).inTransit k = s.inTransit k := by rw [hclose, State.closeBy_producer_inTransit ha]
    have hflag : a.closedBy p = false := by rw [Active.closedBy, if_pos hp, hopen]
    have hbounced : a.bounced p = 0 := by rw [Active.bounced, if_pos hp]
    have hother : a.params.other p = q := by rw [ChanParams.other, if_pos hp]
    have hdone (drained : Bool) : (s.closeBy p k).complete p r.tag .done (closeVals k (a.bounced p) drained) =
        ((s.setHpi p ((s.hpi p).afterCompletion r.tag .close .done (closeVals k 0 drained) s.stamp)).setHpi q told).setChan k
          (.active { a with closedProducer := true, takeWaits := [] }) := by
      rw [hclose, hbounced, State.complete_setChan, State.complete_setHpi hends h.hasRequest]
    refine ⟨fun hbusy => ?_, fun hdrained => ?_⟩
    · rw [h.exec_close, settleClose_stays hr ha (.inl hp) hflag (by omega), hdone, hother, State.notice_eq]
      simp only [State.setChan_setHpi, State.hpi_setChan, State.hpi_setHpi_same, State.setHpi_setHpi, State.stamp_setChan,
        State.stamp_setHpi]
      rfl
    · rw [h.exec_close, settleClose_unbinds hr ha (.inl hp) hflag (by omega), hdone]
      subst hp
      have hkept (w : Wait) (hw : w ∈ a.collectWaits) := (hcollects w hw).after (k := .close)
        ((hcollects w hw).tag_ne h.hasRequest (by decide)) .done (closeVals k 0 true) s.stamp
      exact congrArg _ (State.unbind_setEnds (a := { a with closedProducer := true, takeWaits := [] }) hends hkept hn')

end Sys2Proof.Machine

/-!
PROOFS. Descriptors freed one after the other, and the bounce of a forward queue (R53, R54).
-/

namespace Sys2Proof.Machine

/-! ### Requests that stay outstanding behind other records -/

/-- The table of an HPI holds a request with this tag and kind, and its tags differ: `State.hasRequest` of one HPI. -/
def Hpi.holds (h : Hpi) (tag : Tag) (k : ReqKind) : Prop :=
  (∃ e ∈ h.table, e.req.tag = tag ∧ e.req.kind = k) ∧ (h.table.map (fun e => e.req.tag)).Nodup

section
variable {h : Hpi} {tag : Tag} {k j : ReqKind} {code : ResultCode} {v : Vals} {stamp : Word}

theorem State.hasRequest_iff {s : State} {p : Port} : s.hasRequest p tag k ↔ (s.hpi p).holds tag k := Iff.rfl

theorem Hpi.holds.of_table {h' : Hpi} (hh : h.holds tag k) (e : h'.table = h.table) : h'.holds tag k := by
  rw [Hpi.holds, e]
  exact hh

theorem Hpi.holds.afterCompletion (hh : h.holds tag k) {tag' : Tag} (hne : tag ≠ tag') :
    (h.afterCompletion tag' j code v stamp).holds tag k := by
  obtain ⟨⟨e, he, ht, hk⟩, hn⟩ := hh
  exact ⟨⟨e, (Hpi.mem_afterCompletion ..).2 ⟨he, ht ▸ hne⟩, ht, hk⟩, Hpi.nodup_afterCompletion h tag' j code v stamp hn⟩

theorem Hpi.holds.afterAll (ws : List Wait) (hh : h.holds tag k) (hne : ∀ w ∈ ws, w.tag ≠ tag) :
    (h.afterAll ws j code v stamp).holds tag k := by
  induction ws generalizing h with
  | nil => exact hh
  | cons w ws ih =>
    exact ih (hh.afterCompletion (hne w List.mem_cons_self).symm) fun w' hw' => hne w' (List.mem_cons_of_mem w hw')

theorem Hpi.afterNotice_table (h : Hpi) (n : NoticeKind) (v : Vals) (stamp : Word) :
    (h.afterNotice n v stamp).table = h.table := by
  unfold Hpi.afterNotice
  split_ifs <;> rfl

theorem Hpi.holds.afterNotice (hh : h.holds tag k) {n : NoticeKind} : (h.afterNotice n v stamp).holds tag k :=
  hh.of_table (h.afterNotice_table n v stamp)

end

/-! ### Descriptors freed one after the other -/

section
variable {s : State} {i : DescIx}

theorem State.freeAll_ports (is : List DescIx) (s : State) : (is.foldl State.freeDesc s).ports = s.ports := by
  induction is generalizing s with
  | nil => rfl
  | cons i rest ih => rw [List.foldl_cons, ih, s.freeDesc_ports]

theorem State.freeAll_chans (is : List DescIx) (s : State) : (is.foldl State.freeDesc s).chans = s.chans := by
  induction is generalizing s with
  | nil => rfl
  | cons i rest ih => rw [List.foldl_cons, ih, s.freeDesc_chans]

theorem State.freeAll_ticks (is : List DescIx) (s : State) : (is.foldl State.freeDesc s).ticks = s.ticks := by
  induction is generalizing s with
  | nil => rfl
  | cons i rest ih => rw [List.foldl_cons, ih, s.freeDesc_ticks]

/-- The blocks of these descriptors, in the order of the descriptors. -/
def State.blocksOf (s : State) (is : List DescIx) : List BlockIx := is.flatMap fun i => (s.desc i).blockList

theorem State.blocksOf_congr {t : State} {is : List DescIx} (h : ∀ i ∈ is, t.desc i = s.desc i) :
    t.blocksOf is = s.blocksOf is :=
  List.flatMap_congr fun i hi => by rw [h i hi]

theorem Desc.buf_ne_none {d : Desc} (h : d.state ≠ .free) : d.buf ≠ none := by
  cases hl : d.life <;> simp_all [Desc.state, Desc.buf]

/-- Each of the descriptors is FREE in its next generation, and no other has changed (R12). -/
theorem State.freeAll_desc (is : List DescIx) (s : State) (hn : is.Nodup) (hfree : ∀ i ∈ is, (s.desc i).state ≠ .free) :
    (∀ i ∈ is, (is.foldl State.freeDesc s).desc i = ⟨(s.desc i).generation + 1#8, .free⟩) ∧
      ∀ i, i ∉ is → (is.foldl State.freeDesc s).desc i = s.desc i := by
  induction is generalizing s with
  | nil => exact ⟨fun _ h => absurd h List.not_mem_nil, fun _ _ => rfl⟩
  | cons i rest ih =>
    obtain ⟨hi, hrest⟩ := List.nodup_cons.1 hn
    have hne (j : DescIx) (hj : j ∈ rest) : i ≠ j := fun e => hi (e ▸ hj)
    obtain ⟨hlives, hothers⟩ := ih (s.freeDesc i) hrest fun j hj => by
      rw [s.freeDesc_desc_ne (hne j hj)]
      exact hfree j (List.mem_cons_of_mem i hj)
    rw [List.foldl_cons]
    refine ⟨fun j hj => ?_, fun j hj => ?_⟩
    · rcases List.mem_cons.1 hj with rfl | hj
      · rw [hothers _ hi, s.freeDesc_desc_same _ (Desc.buf_ne_none (hfree _ List.mem_cons_self))]
      · rw [hlives j hj, s.freeDesc_desc_ne (hne j hj)]
    · rw [List.mem_cons, not_or] at hj
      rw [hothers j hj.2, s.freeDesc_desc_ne (Ne.symm hj.1)]

/-- Freeing descriptors in turn is freeing them together: no block stands in two of them. -/
theorem State.freedAll_foldl (is : List DescIx) (s : State) (hn : is.Nodup) (hfree : ∀ i ∈ is, (s.desc i).state ≠ .free)
    (hb : (s.blocksOf is).Nodup) : s.freedAll (is.foldl State.freeDesc s) is := by
  refine ⟨(State.freeAll_desc is s hn hfree).1, ?_⟩
  induction is generalizing s with
  | nil => exact ⟨by simp, by simp, by simp⟩
  | cons i rest ih =>
    obtain ⟨hi, hrest⟩ := List.nodup_cons.1 hn
    have hsplit : s.blocksOf (i :: rest) = (s.desc i).blockList ++ s.blocksOf rest := List.flatMap_cons
    rw [hsplit] at hb
    obtain ⟨hbi, hbrest, hdisjoint⟩ := List.nodup_append'.1 hb
    obtain ⟨-, hothers, hlist, hretired, hblocks, -⟩ := s.becameFree_freeDesc i (hfree i List.mem_cons_self) hbi
    have hkept (j : DescIx) (hj : j ∈ rest) : (s.freeDesc i).desc j = s.desc j := hothers j fun e => hi (e ▸ hj)
    have hsame := State.blocksOf_congr hkept
    have hsuspect (b : BlockIx) (hmem : b ∈ s.blocksOf rest) : (s.freeDesc i).block b = s.block b := by
      rw [hblocks, if_neg fun h => hdisjoint h hmem]
    obtain ⟨hlist', hretired', hblocks'⟩ := ih (s.freeDesc i) hrest
      (fun j hj => by rw [hkept j hj]; exact hfree j (List.mem_cons_of_mem i hj)) (by rwa [hsame])
    change _ = _ ++ ((s.freeDesc i).blocksOf rest).filter _ at hlist'
    change _ = _ ++ ((s.freeDesc i).blocksOf rest).filter _ at hretired'
    refine ⟨?_, ?_, fun b => ?_⟩
    · change _ = s.freeList ++ (s.blocksOf (i :: rest)).filter _
      rw [List.foldl_cons, hlist', hlist, hsame, hsplit, List.filter_append, List.append_assoc]
      exact congrArg _ (congrArg _ (List.filter_congr fun b hmem => by rw [hsuspect b hmem]))
    · change _ = s.retired ++ (s.blocksOf (i :: rest)).filter _
      rw [List.foldl_cons, hretired', hretired, hsame, hsplit, List.filter_append, List.append_assoc]
      exact congrArg _ (congrArg _ (List.filter_congr fun b hmem => by rw [hsuspect b hmem]))
    · change _ = if b ∈ s.blocksOf (i :: rest) then _ else _
      have hblock := hblocks' b
      change _ = if b ∈ (s.freeDesc i).blocksOf rest then _ else _ at hblock
      rw [List.foldl_cons, hblock, hsame, hsplit]
      by_cases hmem : b ∈ s.blocksOf rest
      · rw [if_pos hmem, if_pos (List.mem_append_right _ hmem), hsuspect b hmem]
      · rw [if_neg hmem, hblocks b]
        simp only [List.mem_append, hmem, or_false]

theorem State.freeDesc_due (h : (s.desc i).state ≠ .free) : (s.freeDesc i).reexamsDue = s.reexamsDue + 1 := by
  obtain ⟨b, hb⟩ := Option.ne_none_iff_exists'.1 (Desc.buf_ne_none h)
  obtain ⟨x, f, r, hhand⟩ := State.handOverAll_frame b.blocks s
  simp only [State.freeDesc, hb, hhand]
  rfl

/-- Each of the descriptors freed calls for a re-examination (R29). -/
theorem State.freeAll_due (is : List DescIx) (s : State) (hn : is.Nodup) (hfree : ∀ i ∈ is, (s.desc i).state ≠ .free) :
    (is.foldl State.freeDesc s).reexamsDue = s.reexamsDue + is.length := by
  induction is generalizing s with
  | nil => rfl
  | cons i rest ih =>
    obtain ⟨hi, hrest⟩ := List.nodup_cons.1 hn
    have hkept (j : DescIx) (hj : j ∈ rest) : (s.freeDesc i).desc j = s.desc j := s.freeDesc_desc_ne fun e => hi (e ▸ hj)
    rw [List.foldl_cons, ih _ hrest fun j hj => by rw [hkept j hj]; exact hfree j (List.mem_cons_of_mem i hj),
      State.freeDesc_due (hfree i List.mem_cons_self), List.length_cons]
    omega

end

/-! ### Buffers that come back undelivered -/

/-- The HPI `h` after the DONE completions of waiting COLLECTs, each with the bounced descriptor it receives (R54). -/
def State.collectedAll (s : State) (xs : List (Wait × DescIx)) (h : Hpi) : Hpi :=
  xs.foldl (fun h x =>
    match (s.desc x.2).life with
    | .queued b tr => h.afterCompletion x.1.tag .collect .done (s.collectVals x.2 b tr ⟨.undelivered, none⟩) s.stamp
    | _ => h) h

theorem State.collectedAll_cons {s : State} {w : Wait} {i : DescIx} {b : Buf} {tr : Traffic} (xs : List (Wait × DescIx))
    (h : Hpi) (hi : (s.desc i).life = .queued b tr) :
    s.collectedAll ((w, i) :: xs) h = s.collectedAll xs
      (h.afterCompletion w.tag .collect .done (s.collectVals i b tr ⟨.undelivered, none⟩) s.stamp) := by
  simp only [State.collectedAll, List.foldl_cons, hi]

theorem Hpi.holds.collectedAll {s : State} {h : Hpi} {tag : Tag} {k : ReqKind} (xs : List (Wait × DescIx)) (hh : h.holds tag k)
    (hne : ∀ x ∈ xs, x.1.tag ≠ tag) : (s.collectedAll xs h).holds tag k := by
  induction xs generalizing h with
  | nil => exact hh
  | cons x xs ih =>
    refine ih ?_ fun y hy => hne y (List.mem_cons_of_mem x hy)
    dsimp only
    split
    · exact hh.afterCompletion (hne x List.mem_cons_self).symm
    · exact hh

theorem State.collectVals_congr {s t : State} {i : DescIx} (h : t.desc i = s.desc i) (b : Buf) (tr : Traffic) (c : Came) :
    t.collectVals i b tr c = s.collectVals i b tr c := by
  simp only [State.collectVals, State.handle, h]

theorem State.collectedAll_congr {s t : State} (xs : List (Wait × DescIx)) (h : Hpi)
    (hd : ∀ x ∈ xs, t.desc x.2 = s.desc x.2) (hstamp : t.stamp = s.stamp) :
    t.collectedAll xs h = s.collectedAll xs h := by
  refine List.foldl_ext _ _ h fun h x hx => ?_
  rw [hd x hx, hstamp]
  split
  · rw [State.collectVals_congr (hd x hx)]
  · rfl

/-- `t` is `s` once the descriptors `is` have come back to channel `k`, which was `a`, from the first to the last: as many
COLLECTs as there are descriptors have been served, and the other descriptors stand in the return queue (R54). -/
structure State.cameBack (s t : State) (k : ChanIx) (a : Active) (is : List DescIx) : Prop where
  chan : t.chan k = .active { a with
    returns := a.returns ++ is.drop a.collectWaits.length, collectWaits := a.collectWaits.drop is.length }
  chans : s.otherChans t k
  producer : (∀ w ∈ a.collectWaits, s.hasRequest a.params.producer w.tag .collect) → (a.collectWaits.map Wait.tag).Nodup →
    t.hpi a.params.producer = s.collectedAll (a.collectWaits.zip is) (s.hpi a.params.producer)
  others : s.othersKept t a.params.producer
  came : ∀ (j : Nat) (i : DescIx) (b : Buf) (tr : Traffic), is[j]? = some i → (s.desc i).life = .queued b tr →
    t.desc i = ⟨(s.desc i).generation,
      if j < a.collectWaits.length then .collected b tr ⟨.undelivered, none⟩ else .returning b tr ⟨.undelivered, none⟩⟩
  stay : ∀ i, i ∉ is → t.desc i = s.desc i
  rest : t = { s with ports := t.ports, chans := t.chans, descs := t.descs }

section
variable {s : State} {k : ChanIx} {a : Active}

theorem State.bounceOne_of_queued {i : DescIx} {b : Buf} {tr : Traffic} (hi : (s.desc i).life = .queued b tr) :
    State.bounceOne k s i = s.arrive k i b tr ⟨.undelivered, none⟩ := by
  simp only [State.bounceOne, hi]

/-- A completion writes one HPI, whether or not the request is outstanding. -/
theorem State.complete_writes {u : State} {q : Port} {tag : Tag} {j : ReqKind} {code : ResultCode} {v : Vals} :
    ∃ h, u.complete q tag code v = u.setHpi q h ∧
      (u.hasRequest q tag j → h = (u.hpi q).afterCompletion tag j code v u.stamp) := by
  by_cases hreq : u.hasRequest q tag j
  · exact ⟨_, State.complete_eq u q tag j code v hreq, fun _ => rfl⟩
  · obtain ⟨l, m, h⟩ := u.complete_frame q tag code v
    exact ⟨_, h, fun h => absurd h hreq⟩

/-- One descriptor comes back, to the oldest waiting COLLECT or to the return queue (R73). -/
theorem State.cameBack_one {i : DescIx} {b : Buf} {tr : Traffic} (ha : s.chan k = .active a)
    (hi : (s.desc i).life = .queued b tr) : s.cameBack (State.bounceOne k s i) k a [i] := by
  have hstay {u : State} {d : Desc} (j : DescIx) (hj : j ∉ [i]) : (u.setDesc i d).desc j = u.desc j :=
    State.desc_setDesc_ne _ _ fun e => hj (by simp [e])
  rw [State.bounceOne_of_queued hi]
  cases hw : a.collectWaits with
  | nil =>
    rw [State.arrive_returned ha hw]
    exact {
      chan := by simp [hw]
      chans := fun d hd => State.chan_setChan_ne _ _ hd.symm
      producer := fun _ _ => by rw [hw]; rfl
      others := fun _ _ => rfl
      came := fun j i' b' tr' hj hi' => by
        obtain ⟨rfl, rfl⟩ : j = 0 ∧ i' = i := by cases j <;> simp_all
        rw [hi] at hi'
        cases hi'
        rw [hw]
        exact State.desc_setDesc_same ..
      stay := hstay
      rest := rfl }
  | cons w ws =>
    obtain ⟨h, hcomplete, hdone⟩ := State.complete_writes
      (u := (s.setChan k (.active { a with collectWaits := ws })).setLife i (.collected b tr ⟨.undelivered, none⟩))
      (q := a.params.producer) (tag := w.tag) (j := .collect) (code := .done)
      (v := s.collectVals i b tr ⟨.undelivered, none⟩)
    rw [State.arrive_collected ha hw, hcomplete]
    exact {
      chan := by simp [hw]
      chans := fun d hd => State.chan_setChan_ne _ _ hd.symm
      producer := fun hreq _ => by
        rw [hw, List.zip_cons_cons, List.zip_nil_right, State.collectedAll_cons _ _ hi, State.hpi_setHpi_same]
        exact hdone (hreq w (by rw [hw]; exact List.mem_cons_self))
      others := fun x hx => State.hpi_setHpi_ne _ _ hx.symm
      came := fun j i' b' tr' hj hi' => by
        obtain ⟨rfl, rfl⟩ : j = 0 ∧ i' = i := by cases j <;> simp_all
        rw [hi] at hi'
        cases hi'
        rw [hw]
        exact State.desc_setDesc_same ..
      stay := hstay
      rest := rfl }

/-- The channel once descriptor `i` has come back. -/
def Active.cameOne (a : Active) (i : DescIx) : Active :=
  { a with returns := a.returns ++ [i].drop a.collectWaits.length, collectWaits := a.collectWaits.drop 1 }

theorem State.cameBack.stamp {t : State} {is : List DescIx} (h : s.cameBack t k a is) : t.stamp = s.stamp := by
  rw [h.rest]
  rfl

/-- A descriptor comes back ahead of others. -/
theorem State.cameBack.trans {u t : State} {i : DescIx} {rest : List DescIx} (hi : i ∉ rest) (h : s.cameBack u k a [i])
    (h' : u.cameBack t k (a.cameOne i) rest) : s.cameBack t k a (i :: rest) where
  chan := by
    rw [h'.chan, Active.cameOne]
    cases a.collectWaits <;> simp
  chans := fun d hd => (h'.chans d hd).trans (h.chans d hd)
  producer := fun hreq htags => by
    have hkept : ∀ x ∈ (a.cameOne i).collectWaits.zip rest, u.desc x.2 = s.desc x.2 := fun x hx =>
      h.stay x.2 fun hmem => hi (List.mem_singleton.1 hmem ▸ (List.of_mem_zip hx).2)
    have hleft : (a.cameOne i).collectWaits = a.collectWaits.drop 1 := rfl
    have hfirst := h.producer hreq htags
    have hsecond : t.hpi a.params.producer = _ := h'.producer (fun w hw => ?_)
      (htags.sublist ((List.drop_sublist 1 _).map Wait.tag))
    · rw [hsecond, State.collectedAll_congr _ _ hkept h.stamp]
      rw [show (a.cameOne i).params.producer = a.params.producer from rfl, hfirst, hleft]
      cases a.collectWaits with
      | nil => rfl
      | cons w ws =>
        rw [List.zip_cons_cons, List.zip_cons_cons, List.zip_nil_right]
        rfl
    · rw [hleft] at hw
      rw [State.hasRequest_iff, show (a.cameOne i).params.producer = a.params.producer from rfl, hfirst]
      refine Hpi.holds.collectedAll _ (hreq w (List.mem_of_mem_drop hw)) fun x hx => ?_
      cases hcw : a.collectWaits with
      | nil => simp [hcw] at hw
      | cons y ws =>
        rw [hcw] at hx hw htags
        obtain rfl : x = (y, i) := by simpa using hx
        exact fun e => (List.nodup_cons.1 htags).1 (e ▸ List.mem_map_of_mem hw)
  others := fun x hx => (h'.others x hx).trans (h.others x hx)
  came := fun j i' b tr hj hi' => by
    cases j with
    | zero =>
      obtain rfl : i' = i := by simpa using hj.symm
      rw [h'.stay i' hi, h.came 0 i' b tr rfl hi']
    | succ j =>
      have hmem : i' ∈ rest := List.mem_of_getElem? hj
      have hkept : u.desc i' = s.desc i' := h.stay i' fun hm => hi (List.mem_singleton.1 hm ▸ hmem)
      have hcame := h'.came j i' b tr hj (by rw [hkept]; exact hi')
      rw [hcame, hkept, Active.cameOne]
      cases a.collectWaits with
      | nil => rfl
      | cons w ws => simp
  stay := fun i' hi' => by
    rw [List.mem_cons, not_or] at hi'
    rw [h'.stay i' hi'.2, h.stay i' fun hm => hi'.1 (List.mem_singleton.1 hm)]
  rest := by
    refine h'.rest.trans ?_
    exact congrArg (fun w : State => { w with ports := t.ports, chans := t.chans, descs := t.descs }) h.rest

/-- The descriptors of a bounced queue come back one after the other. -/
theorem State.cameBack_foldl (is : List DescIx) (s : State) (a : Active) (ha : s.chan k = .active a) (hn : is.Nodup)
    (hqueued : ∀ i ∈ is, ∃ b tr, (s.desc i).life = .queued b tr) : s.cameBack (is.foldl (State.bounceOne k) s) k a is := by
  induction is generalizing s a with
  | nil =>
    exact {
      chan := by rw [List.foldl_nil, ha]; simp
      chans := fun _ _ => rfl
      producer := fun _ _ => by rw [List.zip_nil_right]; rfl
      others := fun _ _ => rfl
      came := fun j i b tr h => by simp at h
      stay := fun _ _ => rfl
      rest := rfl }
  | cons i rest ih =>
    obtain ⟨hi, hrest⟩ := List.nodup_cons.1 hn
    obtain ⟨b, tr, hlife⟩ := hqueued i List.mem_cons_self
    have hone := State.cameBack_one ha hlife
    rw [List.foldl_cons]
    refine hone.trans hi (ih _ _ hone.chan hrest fun j hj => ?_)
    rw [hone.stay j fun hm => hi (List.mem_singleton.1 hm ▸ hj)]
    exact hqueued j (List.mem_cons_of_mem i hj)

end

end Sys2Proof.Machine

/-!
PROOFS. A close by the consumer (R53, R54, R56).
-/

namespace Sys2Proof.Machine

section
variable {s t : State} {p : Port} {r : Request} {k : ChanIx} {a : Active}

/-- The completions of waiting requests write one HPI, whether or not they are outstanding. -/
theorem State.completeAll_writes {u : State} {q : Port} {ws : List Wait} {j : ReqKind} {code : ResultCode} {v : Vals} :
    ∃ h, u.completeAll q ws code v = u.setHpi q h ∧
      ((∀ w ∈ ws, u.hasRequest q w.tag j) → (ws.map Wait.tag).Nodup →
        h = (u.hpi q).afterAll ws j code v u.stamp) := by
  by_cases hreq : (∀ w ∈ ws, u.hasRequest q w.tag j) ∧ (ws.map Wait.tag).Nodup
  · exact ⟨_, State.completeAll_eq ws u q j code v hreq.1 hreq.2, fun _ _ => rfl⟩
  · suffices ∃ h, u.completeAll q ws code v = u.setHpi q h by
      obtain ⟨h, hall⟩ := this
      exact ⟨h, hall, fun h1 h2 => absurd ⟨h1, h2⟩ hreq⟩
    clear hreq
    induction ws generalizing u with
    | nil => exact ⟨u.hpi q, (State.setHpi_self u q).symm⟩
    | cons w ws ih =>
      obtain ⟨l, m, h⟩ := u.complete_frame q w.tag code v
      obtain ⟨h', hrest⟩ := ih (u := u.complete q w.tag code v)
      exact ⟨h', hrest.trans (by rw [h, State.setHpi_setHpi])⟩

/-- `t` is `s` once the consumer of channel `k`, which was `a`, has closed its end: its waiting TAKEs have completed CLOSED
and the forward queue is bounced (R53, R54). -/
structure State.consumerClosed (s t : State) (k : ChanIx) (a : Active) : Prop where
  chan : t.chan k = .active (a.afterBounce (s.givesBack a))
  chans : s.otherChans t k
  consumer : (∀ w ∈ a.takeWaits, s.hasRequest a.params.consumer w.tag .take) → (a.takeWaits.map Wait.tag).Nodup →
    t.hpi a.params.consumer =
      (s.hpi a.params.consumer).afterAll a.takeWaits .take .closed { channel := BitVec.ofNat 4 k.val } s.stamp
  producer : (∀ w ∈ a.collectWaits, s.hasRequest a.params.producer w.tag .collect) → (a.collectWaits.map Wait.tag).Nodup →
    t.hpi a.params.producer = s.toldOfBounce k a (s.hpi a.params.producer)
  others : ∀ x : Port, x ≠ a.params.consumer → x ≠ a.params.producer → t.hpi x = s.hpi x
  stay : ∀ i : DescIx, i ∉ a.forward → t.desc i = s.desc i
  back : s.givesBack a = true → s.undelivered t a ∧ s.freedAll t []
  freed : s.givesBack a = false → ∀ i ∈ a.forward, t.desc i = ⟨(s.desc i).generation + 1#8, .free⟩
  pool : s.givesBack a = false → (s.blocksOf a.forward).Nodup → s.freedAll t a.forward
  due : t.reexamsDue = s.reexamsDue + if s.givesBack a = true then 0 else a.forward.length
  rest : s.trafficOnly t

/-! ### What the producer is told of the bounce -/

theorem State.toldOfBounce_oneWay (hk : a.params.kind = .oneWay) (h : Hpi) :
    s.toldOfBounce k a h = if a.forward = [] then h
      else h.afterNotice .bounced { channel := BitVec.ofNat 4 k.val, v0 := BitVec.ofNat 16 a.forward.length } s.stamp := by
  simp only [State.toldOfBounce, hk, if_true]

theorem State.toldOfBounce_back (hback : s.givesBack a = true) (h : Hpi) :
    s.toldOfBounce k a h =
      if a.returns = [] ∧ a.collectWaits.length < a.forward.length then
        (s.collectedAll (a.collectWaits.zip a.forward) h).afterNotice .returnArrival { channel := BitVec.ofNat 4 k.val } s.stamp
      else s.collectedAll (a.collectWaits.zip a.forward) h := by
  have hk : a.params.kind ≠ .oneWay := fun hk => by simp [State.givesBack, hk] at hback
  rw [State.toldOfBounce, if_neg hk, if_pos hback]
  rfl

theorem State.toldOfBounce_gone (hk : a.params.kind ≠ .oneWay) (hback : s.givesBack a = false) (h : Hpi) :
    s.toldOfBounce k a h = h := by
  rw [State.toldOfBounce, if_neg hk, hback]
  rfl

/-! ### The bounce -/

/-- The consumer's end is closed, with nothing bounced yet: its flag is set, and its waiting TAKEs have gone. -/
def Active.shut (a : Active) : Active := { a with closedConsumer := true, takeWaits := [], forward := [] }

/-- A close by the consumer, by what becomes of the buffers (R53, R54). -/
theorem State.closeBy_consumer (ha : s.chan k = .active a) (hp : a.params.producer ≠ p) :
    s.closeBy p k =
      let u := (s.completeAll a.params.consumer a.takeWaits .closed { channel := chanField k }).setChan k (.active a.shut)
      if s.givesBack a = true then (a.forward.foldl (State.bounceOne k) u).noticeReturns k a.returns.isEmpty
      else if a.params.kind = .oneWay ∧ a.forward ≠ [] then
        (a.forward.foldl State.freeDesc u).notice a.params.producer .bounced
          { channel := chanField k, v0 := word a.forward.length }
      else a.forward.foldl State.freeDesc u := by
  simp only [State.closeBy, ha, Chan.active?, if_neg hp, State.consumerClose, State.chan_setChan_same, State.setChan_setChan,
    State.completeAll_setChan, State.givesBack, State.online_setChan]
  obtain hk | hk : a.params.kind = .oneWay ∨ a.params.kind = .roundTrip := by cases a.params.kind <;> simp
  · by_cases hf : a.forward = []
    · simp [hk, hf, Active.shut]
    · simp [hk, hf, Active.shut]
  · by_cases ho : s.online a.params.producer = true
    · simp [hk, ho, Active.shut]
    · simp [hk, ho, Active.shut]

/-- A close by the consumer, whatever the requests that wait: the channel, the buffers and, where the requests are
outstanding, the records. -/
theorem State.closeBy_consumerClosed (ha : s.chan k = .active a) (hp : a.params.consumer = p) (hends : a.params.producer ≠ p)
    (hn : a.forward.Nodup) (hqueued : ∀ i ∈ a.forward, ∃ b tr, (s.desc i).life = .queued b tr) :
    s.consumerClosed (s.closeBy p k) k a := by
  subst hp
  obtain ⟨h, hall, hdone⟩ := State.completeAll_writes (u := s) (q := a.params.consumer) (ws := a.takeWaits) (j := .take)
    (code := .closed) (v := { channel := chanField k })
  have hclose := State.closeBy_consumer ha hends
  rw [hall] at hclose
  dsimp only at hclose
  have hrest := State.trafficOnly_closeBy s a.params.consumer k
  have hkept : ((s.setHpi a.params.consumer h).setChan k (.active a.shut)).hpi a.params.producer = s.hpi a.params.producer :=
    s.hpi_setHpi_ne h hends.symm
  cases hback : s.givesBack a with
  | true =>
    rw [hback, if_pos rfl] at hclose
    have hcame := State.cameBack_foldl (k := k) a.forward ((s.setHpi a.params.consumer h).setChan k (.active a.shut)) a.shut
      (State.chan_setChan_same ..) hn hqueued
    rw [State.noticeReturns_active hcame.chan, hcame.stamp] at hclose
    have hchan := hcame.chan
    have hothers : ∀ x : Port, x ≠ a.params.producer → _ := hcame.others
    have htold (hreq : ∀ w ∈ a.collectWaits, s.hasRequest a.params.producer w.tag .collect)
        (htags : (a.collectWaits.map Wait.tag).Nodup) :
        (a.forward.foldl (State.bounceOne k) ((s.setHpi a.params.consumer h).setChan k (.active a.shut))).hpi
          a.params.producer = s.collectedAll (a.collectWaits.zip a.forward) (s.hpi a.params.producer) :=
      (hcame.producer (fun w hw => (hreq w hw).of_hpi hkept) htags).trans (congrArg _ hkept)
    have hcame' := hcame.came
    have hpool := hcame.rest
    have hchans := hcame.chans
    have hstay := hcame.stay
    generalize a.forward.foldl (State.bounceOne k) ((s.setHpi a.params.consumer h).setChan k (.active a.shut)) = f at *
    have hgrown : (a.returns.isEmpty && !(a.returns ++ a.forward.drop a.collectWaits.length).isEmpty) = true ↔
        a.returns = [] ∧ a.collectWaits.length < a.forward.length := by
      cases a.returns <;> simp
    have hnotice : s.closeBy a.params.consumer k = f.setHpi a.params.producer
        (if a.returns = [] ∧ a.collectWaits.length < a.forward.length then (f.hpi a.params.producer).afterNotice
          .returnArrival { channel := BitVec.ofNat 4 k.val } s.stamp else f.hpi a.params.producer) := by
      simp only [← hgrown]
      exact hclose
    rw [hnotice] at hrest ⊢
    exact {
      chan := by
        rw [State.chan_setHpi, hchan, hback]
        rfl
      chans := fun d hd => (hchans d hd).trans (State.chan_setChan_ne _ _ hd.symm)
      consumer := fun htakes htags => by
        rw [State.hpi_setHpi_ne _ _ hends, hothers _ hends.symm, State.hpi_setChan, State.hpi_setHpi_same]
        exact hdone htakes htags
      producer := fun hreq htags => by
        rw [State.toldOfBounce_back hback, State.hpi_setHpi_same, htold hreq htags]
      others := fun x hx hq => by
        rw [State.hpi_setHpi_ne _ _ hq.symm, hothers x hq]
        exact s.hpi_setHpi_ne h hx.symm
      stay := hstay
      back := fun _ => ⟨hcame', by
        rw [hpool]
        exact ⟨fun _ hi => absurd hi List.not_mem_nil, (List.append_nil _).symm, (List.append_nil _).symm, fun _ => rfl⟩⟩
      freed := fun hb => absurd (hback.symm.trans hb) (by decide)
      pool := fun hb => absurd (hback.symm.trans hb) (by decide)
      due := by
        rw [hpool, hback]
        rfl
      rest := hrest }
  | false =>
    have hfree : ∀ i ∈ a.forward, (s.desc i).state ≠ .free := fun i hi => by
      obtain ⟨b, tr, hl⟩ := hqueued i hi
      simp [Desc.state, hl]
    obtain ⟨hlives, hstay⟩ := State.freeAll_desc a.forward ((s.setHpi a.params.consumer h).setChan k (.active a.shut)) hn hfree
    have hdue := State.freeAll_due a.forward ((s.setHpi a.params.consumer h).setChan k (.active a.shut)) hn hfree
    have hhpi (x : Port) := State.hpi_of_ports (State.freeAll_ports a.forward
      ((s.setHpi a.params.consumer h).setChan k (.active a.shut))) x
    have hchan (d : ChanIx) : (a.forward.foldl State.freeDesc
        ((s.setHpi a.params.consumer h).setChan k (.active a.shut))).chan d =
          ((s.setHpi a.params.consumer h).setChan k (.active a.shut)).chan d := by
      rw [State.chan, State.freeAll_chans]
      rfl
    have hstamp : (a.forward.foldl State.freeDesc ((s.setHpi a.params.consumer h).setChan k (.active a.shut))).stamp =
        s.stamp := by
      rw [State.stamp, State.freeAll_ticks]
      rfl
    have hpool := State.freedAll_foldl a.forward ((s.setHpi a.params.consumer h).setChan k (.active a.shut)) hn hfree
    generalize a.forward.foldl State.freeDesc ((s.setHpi a.params.consumer h).setChan k (.active a.shut)) = f at *
    have hnotice : s.closeBy a.params.consumer k = f.setHpi a.params.producer
        (if a.params.kind = .oneWay ∧ a.forward ≠ [] then (s.hpi a.params.producer).afterNotice .bounced
          { channel := chanField k, v0 := word a.forward.length } s.stamp else s.hpi a.params.producer) := by
      rw [hclose, hback, if_neg Bool.false_ne_true]
      split
      · rw [State.notice_eq, hhpi, hkept, hstamp]
      · rw [← hkept, ← hhpi, State.setHpi_self]
    rw [hnotice] at hrest ⊢
    exact {
      chan := by
        rw [State.chan_setHpi, hchan, hback]
        exact State.chan_setChan_same ..
      chans := fun d hd => (hchan d).trans (State.chan_setChan_ne _ _ hd.symm)
      consumer := fun htakes htags => by
        rw [State.hpi_setHpi_ne _ _ hends, hhpi, State.hpi_setChan, State.hpi_setHpi_same]
        exact hdone htakes htags
      producer := fun _ _ => by
        rw [State.hpi_setHpi_same]
        by_cases hk : a.params.kind = .oneWay
        · rw [State.toldOfBounce_oneWay hk]
          by_cases hf : a.forward = []
          · rw [if_neg (by simp [hf]), if_pos hf]
          · rw [if_pos ⟨hk, hf⟩, if_neg hf]
            rfl
        · rw [State.toldOfBounce_gone hk hback, if_neg fun h => hk h.1]
      others := fun x hx hq => by
        rw [State.hpi_setHpi_ne _ _ hq.symm, hhpi]
        exact s.hpi_setHpi_ne h hx.symm
      stay := hstay
      back := fun hb => absurd (hback.symm.trans hb) (by decide)
      freed := fun _ => hlives
      pool := fun _ hb => hpool hb
      due := by
        rw [hback]
        exact hdue
      rest := hrest }

end

end Sys2Proof.Machine

/-!
PROOFS. The CLOSE of the consumer (R51, R53, R54, R56).
-/

namespace Sys2Proof.Machine

section
variable {s t : State} {p : Port} {k c : ChanIx} {a : Active}

/-! ### What the laws say of a forward queue -/

theorem Desc.queued_life {d : Desc} (h : d.state = .queued) : ∃ b tr, d.life = .queued b tr := by
  cases hl : d.life with
  | queued b tr => exact ⟨b, tr, rfl⟩
  | _ => simp [Desc.state, hl] at h

theorem State.queueLaw.forward_nodup (h : s.queueLaw) (ha : s.chan k = .active a) : a.forward.Nodup := by
  have hn := (h k).1
  rwa [s.forward_eq, State.queueAt_forward ha] at hn

theorem State.queueLaw.returns_nodup (h : s.queueLaw) (ha : s.chan k = .active a) : a.returns.Nodup := by
  have hn := (h k).2.1
  rwa [s.returns_eq, State.queueAt_returns ha] at hn

/-- No block stands in two of the descriptors (R18). -/
theorem State.blockLaw.blocksOf_nodup (h : s.blockLaw) {is : List DescIx} (hn : is.Nodup) : (s.blocksOf is).Nodup := by
  refine List.nodup_flatMap.2 ⟨fun i _ => h.nodup i, hn.imp fun hij b hi hj => hij (h.desc_eq hi hj)⟩

/-! ### The counts behind the bounce -/

theorem State.heldCount_congr (h : ∀ i, (t.desc i).heldOn c = (s.desc i).heldOn c) : t.heldCount c = s.heldCount c := by
  rw [State.heldCount_eq, State.heldCount_eq]
  exact List.countP_congr fun i _ => by rw [h i]

/-- What has become of a descriptor of the bounced queue is not HELD. -/
theorem State.consumerClosed.heldCount (h : s.consumerClosed t k a)
    (hqueued : ∀ i ∈ a.forward, ∃ b tr, (s.desc i).life = .queued b tr) : t.heldCount c = s.heldCount c := by
  refine State.heldCount_congr fun i => ?_
  by_cases hi : i ∈ a.forward
  · obtain ⟨b, tr, hl⟩ := hqueued i hi
    have hold : (s.desc i).heldOn c = false := by simp [Desc.heldOn, Desc.state, hl]
    rw [hold]
    cases hback : s.givesBack a with
    | true =>
      obtain ⟨j, hj⟩ := List.mem_iff_getElem?.1 hi
      rw [(h.back hback).1 j i b tr hj hl]
      split <;> rfl
    | false =>
      rw [h.freed hback i hi]
      rfl
  · rw [h.stay i hi]

theorem State.consumerClosed.inTransit (h : s.consumerClosed t k a)
    (hqueued : ∀ i ∈ a.forward, ∃ b tr, (s.desc i).life = .queued b tr) :
    t.inTransit k = s.heldCount k + (a.afterBounce (s.givesBack a)).returns.length := by
  rw [State.inTransit_active h.chan, h.heldCount hqueued]
  simp [Active.afterBounce]

/-! ### The requests that stay outstanding -/

/-- The COLLECTs that received nothing of the bounce are outstanding still. -/
theorem State.toldOfBounce_holds (hreq : ∀ w ∈ a.collectWaits, s.hasRequest a.params.producer w.tag .collect)
    (htags : (a.collectWaits.map Wait.tag).Nodup) :
    ∀ w ∈ (a.afterBounce (s.givesBack a)).collectWaits,
      (s.toldOfBounce k a (s.hpi a.params.producer)).holds w.tag .collect := by
  intro w hw
  by_cases hk : a.params.kind = .oneWay
  · have hback : s.givesBack a = false := by simp [State.givesBack, hk]
    rw [hback] at hw
    rw [State.toldOfBounce_oneWay hk]
    split
    · exact hreq w hw
    · exact (State.hasRequest_iff.1 (hreq w hw)).afterNotice
  · cases hback : s.givesBack a with
    | false =>
      rw [hback] at hw
      rw [State.toldOfBounce_gone hk hback]
      exact hreq w hw
    | true =>
      rw [hback] at hw
      have hw : w ∈ a.collectWaits.drop a.forward.length := hw
      have hcollected : (s.collectedAll (a.collectWaits.zip a.forward) (s.hpi a.params.producer)).holds w.tag .collect := by
        refine (State.hasRequest_iff.1 (hreq w (List.mem_of_mem_drop hw))).collectedAll _ fun x hx e => ?_
        have hx1 : x.1 ∈ a.collectWaits.take a.forward.length := by
          rw [List.zip_eq_zip_take_min] at hx
          exact List.take_subset_take_left _ (Nat.min_le_right _ _) (List.of_mem_zip hx).1
        rw [← List.take_append_drop a.forward.length a.collectWaits, List.map_append] at htags
        exact (List.nodup_append'.1 htags).2.2 (List.mem_map_of_mem hx1) (e ▸ List.mem_map_of_mem hw)
      rw [State.toldOfBounce_back hback]
      split
      · exact hcollected.afterNotice
      · exact hcollected

theorem State.consumerClosed.hasRequests (h : s.consumerClosed t k a)
    (hreq : ∀ w ∈ a.collectWaits, s.hasRequest a.params.producer w.tag .collect) (htags : (a.collectWaits.map Wait.tag).Nodup) :
    ∀ w ∈ (a.afterBounce (s.givesBack a)).collectWaits, t.hasRequest a.params.producer w.tag .collect := fun w hw => by
  rw [State.hasRequest_iff, h.producer hreq htags]
  exact State.toldOfBounce_holds hreq htags w hw

/-- The COLLECTs that received nothing are the last ones of those that waited. -/
theorem Active.afterBounce_waits (back : Bool) : (a.afterBounce back).collectWaits <:+ a.collectWaits := by
  cases back with
  | false => exact List.suffix_refl _
  | true => exact List.drop_suffix _ _

theorem State.consumerClosed.stamp (h : s.consumerClosed t k a) : t.stamp = s.stamp := by
  rw [h.rest]
  rfl

theorem State.consumerClosed.bounces (h : s.consumerClosed t k a) (hb : (s.blocksOf a.forward).Nodup) : s.bounces t a :=
  ⟨h.stay, h.back, fun hback => h.pool hback hb⟩

end

/-- Settles O51: the bounce, the completion, and then the unbinding or CHANNEL_CLOSING. -/
theorem closeByTheConsumer : Obligations.CloseByTheConsumer := by
  intro s p r k a h hr ha hp hends hopen htakes htags hother hreq hwtags hqueue hblock q v b unbinds own
  have hqueued : ∀ i ∈ a.forward, ∃ b tr, (s.desc i).life = .queued b tr := fun i hi => Desc.queued_life (hqueue.queued ha hi)
  have hnodup := hqueue.forward_nodup ha
  have hclosed := State.closeBy_consumerClosed ha hp hends hnodup hqueued
  have hcount := hclosed.inTransit hqueued
  have hflag : a.closedBy p = false := by rw [Active.closedBy, if_neg hends, hopen]
  have hbounced : a.bounced p = a.forward.length := by rw [Active.bounced, if_neg hends]
  have hpeer : a.params.other p = q := by rw [ChanParams.other, if_neg hends]
  have hbounces := hclosed.bounces (hblock.blocksOf_nodup hnodup)
  subst hp
  have htold := hclosed.consumer htakes htags
  have hdone (drained : Bool) :
      (s.closeBy a.params.consumer k).complete a.params.consumer r.tag .done (closeVals k (a.bounced a.params.consumer) drained) =
        (s.closeBy a.params.consumer k).setHpi a.params.consumer (((s.hpi a.params.consumer).afterAll a.takeWaits .take .closed
          v s.stamp).afterCompletion r.tag .close .done (closeVals k a.forward.length drained) s.stamp) := by
    have hclose : (s.closeBy a.params.consumer k).hasRequest a.params.consumer r.tag .close := by
      rw [State.hasRequest_iff, htold]
      exact (State.hasRequest_iff.1 h.hasRequest).afterAll _ hother
    rw [State.complete_eq _ _ _ .close _ _ hclose, htold, hclosed.stamp, hbounced]
  have hexec (hzero : ¬s.heldCount k + b.returns.length = 0) :=
    h.exec_close.trans (congrArg Host.Outcome.next (settleClose_stays hr ha (.inr rfl) hflag (hcount.trans_ne hzero)))
  have hexec' (hzero : s.heldCount k + b.returns.length = 0) :=
    h.exec_close.trans (congrArg Host.Outcome.next (settleClose_unbinds hr ha (.inr rfl) hflag (hcount.trans hzero)))
  have hproducer := hclosed.producer hreq hwtags
  by_cases hzero : s.heldCount k + b.returns.length = 0
  · have hunbinds : unbinds = true := decide_eq_true hzero
    have hown : own = ((s.hpi a.params.consumer).afterAll a.takeWaits .take .closed v s.stamp).afterCompletion r.tag .close
        .done (closeVals k a.forward.length true) s.stamp := by
      simp only [own, hunbinds]
      rfl
    have hunbind := State.unbind_active (s := (s.closeBy a.params.consumer k).setHpi a.params.consumer own) hclosed.chan
      hends.symm
      (fun w hw => (hclosed.hasRequests hreq hwtags w hw).of_hpi (State.hpi_setHpi_ne _ _ hends.symm))
      (hwtags.sublist ((Active.afterBounce_waits _).sublist.map Wait.tag))
    refine ⟨_, hexec' hzero, ?_⟩
    rw [hdone, ← hown, hunbind]
    simp only [hunbinds, if_true]
    refine ⟨?_, ?_, fun x hx hxq => ?_, State.chan_setChan_same .., fun d hd => ?_, hbounces, hclosed.due, ?_⟩
    · rw [State.hpi_setChan, show (a.afterBounce (s.givesBack a)).params = a.params from rfl, State.hpi_setHpi_same,
        State.hpi_setHpi_same, State.stamp_setHpi, hclosed.stamp]
    · rw [State.hpi_setChan, show (a.afterBounce (s.givesBack a)).params = a.params from rfl,
        State.hpi_setHpi_ne _ _ hends.symm, State.hpi_setHpi_same, State.hpi_setHpi_ne _ _ hends.symm, State.stamp_setHpi,
        hproducer, hclosed.stamp]
      rfl
    · rw [State.hpi_setChan, show (a.afterBounce (s.givesBack a)).params = a.params from rfl,
        State.hpi_setHpi_ne _ _ hx.symm, State.hpi_setHpi_ne _ _ hxq.symm, State.hpi_setHpi_ne _ _ hx.symm,
        hclosed.others x hx hxq]
    · rw [State.chan_setChan_ne _ _ hd.symm]
      exact hclosed.chans d hd
    · exact congrArg (fun w : State => (((w.setHpi _ _).setHpi _ _).setHpi _ _).setChan _ _) hclosed.rest
  · have hunbinds : unbinds = false := decide_eq_false hzero
    have hown : own = ((s.hpi a.params.consumer).afterAll a.takeWaits .take .closed v s.stamp).afterCompletion r.tag .close
        .done (closeVals k a.forward.length false) s.stamp := by
      simp only [own, hunbinds]
      rfl
    refine ⟨_, hexec hzero, ?_⟩
    rw [hdone, ← hown, hpeer, State.notice_setHpi_ne _ hends.symm, hproducer, hclosed.stamp]
    simp only [hunbinds, Bool.false_eq_true, if_false]
    refine ⟨?_, ?_, fun x hx hxq => ?_, hclosed.chan, hclosed.chans, hbounces, hclosed.due, ?_⟩
    · rw [State.hpi_setHpi_ne _ _ hends, State.hpi_setHpi_same]
    · rw [State.hpi_setHpi_same]
      rfl
    · rw [State.hpi_setHpi_ne _ _ hxq.symm, State.hpi_setHpi_ne _ _ hx.symm, hclosed.others x hx hxq]
    · exact congrArg (fun w : State => (w.setHpi _ _).setHpi _ _) hclosed.rest

end Sys2Proof.Machine

/-!
PROOFS. One channel of a reclaim start (R165, R166, R179).
-/

namespace Sys2Proof.Machine

/-! ### What a reclaim start does, over some of the channels -/

/-- The descriptors a reclaim start of `p` frees on the channels `ks`: `State.freedByReclaim` of some of the channels. -/
def State.freedOn (s : State) (p : Port) (ks : List ChanIx) : List DescIx :=
  ks.flatMap fun k =>
    match s.chan k with
    | .unbound | .offered _ _ _ => []
    | .active a =>
      if a.params.producer = p then a.returns
      else if a.params.consumer = p ∧ a.closedConsumer = false ∧ s.givesBack a = false then a.forward
      else []

/-- The requests of `q` that wait on the channels `ks`: `State.waitsOf` of some of the channels. -/
def State.waitsOn (s : State) (q : Port) (ks : List ChanIx) : List (Tag × ReqKind) :=
  ks.flatMap fun k =>
    match s.chan k with
    | .unbound => []
    | .offered m tag _ => if m.producer = q then [(tag, .offer)] else []
    | .active a =>
      (if a.params.consumer = q then a.takeWaits.map (fun w => (w.tag, .take)) else []) ++
        (if a.params.producer = q then a.collectWaits.map (fun w => (w.tag, .collect)) else [])

/-- The requests of `q` that wait on the channels `ks` are outstanding, and their tags differ. -/
def State.waitsStand (s : State) (q : Port) (ks : List ChanIx) : Prop :=
  (∀ x ∈ s.waitsOn q ks, s.hasRequest q x.1 x.2) ∧ ((s.waitsOn q ks).map Prod.fst).Nodup

/-- Channel `a` is one whose forward queue the departing consumer `p` bounces. -/
def Active.bouncedBy (a : Active) (p : Port) : Prop := a.params.consumer = p ∧ a.closedConsumer = false

/-- What a reclaim start of `p` does to the buffers of the channels `ks`. -/
structure State.buffersReclaimed (p : Port) (s t : State) (ks : List ChanIx) : Prop where
  freed : ∀ i ∈ s.freedOn p ks, t.desc i = ⟨(s.desc i).generation + 1#8, .free⟩
  back : ∀ k ∈ ks, ∀ a, s.chan k = .active a → a.bouncedBy p → s.givesBack a = true → s.undelivered t a
  stay : ∀ i, i ∉ s.freedOn p ks → (∀ k ∈ ks, ∀ a, s.chan k = .active a → a.bouncedBy p → i ∉ a.forward) →
    t.desc i = s.desc i
  pool : (s.blocksOf (s.freedOn p ks)).Nodup → s.freedAll t (s.freedOn p ks)
  due : t.reexamsDue = s.reexamsDue + (s.freedOn p ks).length

/-- `t` is `s` once a reclaim start of `p` has taken the channels `ks` in turn. -/
structure State.reclaims (p : Port) (s t : State) (ks : List ChanIx) : Prop where
  here : ∀ k ∈ ks, t.chan k = s.chanAfterReclaim p k
  there : ∀ k, k ∉ ks → t.chan k = s.chan k
  told : ∀ q, q ≠ p → s.waitsStand q ks → t.hpi q = ks.foldl (s.toldByReclaim p q) (s.hpi q)
  buffers : s.buffersReclaimed p t ks
  states : ∀ q, (t.hpi q).state = (s.hpi q).state
  stamp : t.stamp = s.stamp

section
variable {s t f : State} {p q : Port} {k : ChanIx} {a b : Active} {m : ChanParams} {tag : Tag} {timer : Timer}

/-! #### One channel -/

theorem State.freedOn_producer (ha : s.chan k = .active a) (hp : a.params.producer = p) :
    s.freedOn p [k] = a.returns := by
  simp only [State.freedOn, List.flatMap_cons, List.flatMap_nil, List.append_nil, ha, if_pos hp]

theorem State.freedOn_consumer (ha : s.chan k = .active a) (hp : a.params.producer ≠ p) :
    s.freedOn p [k] =
      if a.params.consumer = p ∧ a.closedConsumer = false ∧ s.givesBack a = false then a.forward else [] := by
  simp only [State.freedOn, List.flatMap_cons, List.flatMap_nil, List.append_nil, ha, if_neg hp]

theorem State.freedOn_inactive (ha : (s.chan k).active? = none) : s.freedOn p [k] = [] := by
  simp only [State.freedOn, List.flatMap_cons, List.flatMap_nil, List.append_nil]
  split <;> simp_all [Chan.active?]

/-- Where no buffer is freed and none bounced, the buffers and the pool stay. -/
theorem State.buffersReclaimed_of_quiet (hfree : s.freedOn p [k] = []) (hquiet : ∀ a, s.chan k = .active a → ¬a.bouncedBy p)
    (hd : t.descs = s.descs) (hb : t.blocks = s.blocks) (hf : t.freeList = s.freeList) (hr : t.retired = s.retired)
    (hn : t.reexamsDue = s.reexamsDue) : s.buffersReclaimed p t [k] where
  freed := by simp [hfree]
  back := fun k' hk' a ha hbounced _ => by
    obtain rfl := List.mem_singleton.1 hk'
    exact absurd hbounced (hquiet a ha)
  stay := fun i _ _ => State.desc_of_descs hd i
  pool := fun _ => by
    rw [hfree]
    exact ⟨by simp, by simp [hf], by simp [hr], fun b => by simp [State.block, hb]⟩
  due := by simp [hfree, hn]

/-- Records and channels are no part of the buffers. -/
theorem State.buffersReclaimed.of_eq {ks : List ChanIx} (h : s.buffersReclaimed p f ks)
    (e : t = { f with ports := t.ports, chans := t.chans }) : s.buffersReclaimed p t ks := by
  rw [e]
  exact ⟨h.freed, h.back, h.stay, h.pool, h.due⟩

/-! #### The end of an OPEN or CLOSING channel (R56, R166) -/

/-- Unbinding, whatever the requests that wait. -/
theorem State.unbind_writes (hb : f.chan k = .active b) (hends : b.params.consumer ≠ b.params.producer) :
    ∃ h, f.unbind k =
        ((f.setHpi b.params.producer h).setHpi b.params.consumer ((f.hpi b.params.consumer).afterNotice .channelUnbound
          { channel := BitVec.ofNat 4 k.val } f.stamp)).setChan k .unbound ∧
      ((∀ w ∈ b.collectWaits, f.hasRequest b.params.producer w.tag .collect) → (b.collectWaits.map Wait.tag).Nodup →
        h = ((f.hpi b.params.producer).afterAll b.collectWaits .collect .closed { channel := BitVec.ofNat 4 k.val }
          f.stamp).afterNotice .channelUnbound { channel := BitVec.ofNat 4 k.val } f.stamp) := by
  obtain ⟨h, hall, hdone⟩ := State.completeAll_writes (u := f) (q := b.params.producer) (ws := b.collectWaits) (j := .collect)
    (code := .closed) (v := { channel := chanField k })
  refine ⟨h.afterNotice .channelUnbound { channel := BitVec.ofNat 4 k.val } f.stamp, ?_, fun hreq hn => by
    rw [hdone hreq hn]; rfl⟩
  simp only [State.unbind, hb, Chan.active?]
  rw [hall, State.notice_eq, State.notice_eq]
  simp only [State.setChan_setHpi, State.hpi_setChan, State.stamp_setChan, State.setHpi_setHpi, State.hpi_setHpi_same,
    State.stamp_setHpi, State.hpi_setHpi_ne f _ hends.symm]
  rfl

/-- The departing end is done with the channel: it unbinds with nothing in transit, and otherwise the other end receives
PEER_DETACHED. -/
def State.partEnds (f : State) (p : Port) (k : ChanIx) (m : ChanParams) : State :=
  if f.inTransit k == 0 then f.unbind k
  else f.notice (m.other p) .peerDetached { channel := chanField k, v0 := word (portCode p) }

theorem State.partEnds_eq (hb : f.chan k = .active b) (hends : b.params.producer ≠ b.params.consumer)
    (hp : b.params.producer = p ∨ b.params.consumer = p) (hnone : b.params.producer = p → b.collectWaits = []) :
    ∃ g h, f.partEnds p k b.params =
        ((f.setHpi p g).setHpi (b.params.other p) h).setChan k (if f.inTransit k = 0 then .unbound else .active b) ∧
      ((∀ w ∈ b.collectWaits, f.hasRequest b.params.producer w.tag .collect) → (b.collectWaits.map Wait.tag).Nodup →
        h = (f.hpi (b.params.other p)).afterClose k (decide (f.inTransit k = 0)) b.collectWaits .peerDetached p f.stamp) := by
  by_cases hzero : f.inTransit k = 0
  · have hunbinds : f.partEnds p k b.params = f.unbind k := if_pos (beq_iff_eq.2 hzero)
    obtain ⟨h, hunbind, hdone⟩ := State.unbind_writes hb hends.symm
    rw [hunbinds, hunbind, if_pos hzero, decide_eq_true hzero]
    by_cases hprod : b.params.producer = p
    · subst hprod
      have hother : b.params.other b.params.producer = b.params.consumer := if_pos rfl
      rw [hother, hnone rfl]
      exact ⟨_, _, rfl, fun _ _ => rfl⟩
    · have hother : b.params.other p = b.params.producer := if_neg hprod
      obtain rfl := hp.resolve_left hprod
      rw [hother, State.setHpi_comm _ hends]
      exact ⟨_, _, rfl, hdone⟩
  · have hstays : f.partEnds p k b.params =
        f.notice (b.params.other p) .peerDetached { channel := chanField k, v0 := word (portCode p) } :=
      if_neg fun h => hzero (beq_iff_eq.1 h)
    refine ⟨f.hpi p, _, ?_, fun _ _ => rfl⟩
    rw [hstays, State.setHpi_self, if_neg hzero, State.notice_eq, decide_eq_false hzero]
    exact (State.setChan_self (s := f.setHpi _ _) hb).symm

/-! #### The requests that wait on one channel -/

theorem State.waitsStand.takes (h : s.waitsStand q [k]) (ha : s.chan k = .active a) (hc : a.params.consumer = q)
    (hp : a.params.producer ≠ q) :
    (∀ w ∈ a.takeWaits, s.hasRequest q w.tag .take) ∧ (a.takeWaits.map Wait.tag).Nodup := by
  have hwaits : s.waitsOn q [k] = a.takeWaits.map fun w => (w.tag, .take) := by simp [State.waitsOn, ha, hc, hp]
  obtain ⟨hreq, hn⟩ := h
  rw [hwaits] at hreq hn
  exact ⟨fun w hw => hreq _ (List.mem_map_of_mem hw), by simpa [Function.comp_def] using hn⟩

theorem State.waitsStand.collects (h : s.waitsStand q [k]) (ha : s.chan k = .active a) (hc : a.params.consumer ≠ q)
    (hp : a.params.producer = q) :
    (∀ w ∈ a.collectWaits, s.hasRequest q w.tag .collect) ∧ (a.collectWaits.map Wait.tag).Nodup := by
  have hwaits : s.waitsOn q [k] = a.collectWaits.map fun w => (w.tag, .collect) := by simp [State.waitsOn, ha, hc, hp]
  obtain ⟨hreq, hn⟩ := h
  rw [hwaits] at hreq hn
  exact ⟨fun w hw => hreq _ (List.mem_map_of_mem hw), by simpa [Function.comp_def] using hn⟩

theorem State.waitsStand.offer (h : s.waitsStand q [k]) (hm : s.chan k = .offered m tag timer) (hp : m.producer = q) :
    s.hasRequest q tag .offer := by
  have hwaits : s.waitsOn q [k] = [(tag, .offer)] := by simp [State.waitsOn, hm, hp]
  exact h.1 (tag, .offer) (by rw [hwaits]; exact List.mem_singleton.2 rfl)

/-! #### A producer that departs (R166) -/

/-- The channel whose producer has departed, before it may unbind. -/
def Active.withoutProducer (a : Active) : Active :=
  { a with closedProducer := true, takeWaits := if a.closedProducer then a.takeWaits else [], returns := [] }

/-- The producer's end is closed, and then the return queue freed. -/
theorem State.reclaimChannel_producer (ha : s.chan k = .active a) (hp : a.params.producer = p) :
    ∃ h, State.reclaimChannel p s k =
        (a.returns.foldl State.freeDesc ((s.setHpi a.params.consumer h).setChan k (.active a.withoutProducer))).partEnds p k
          a.params ∧
      ((∀ w ∈ a.takeWaits, s.hasRequest a.params.consumer w.tag .take) → (a.takeWaits.map Wait.tag).Nodup →
        h = if a.closedProducer then s.hpi a.params.consumer
          else (s.hpi a.params.consumer).afterAll a.takeWaits .take .closed { channel := BitVec.ofNat 4 k.val } s.stamp) := by
  obtain ⟨h, hall, hdone⟩ := State.completeAll_writes (u := s) (q := a.params.consumer) (ws := a.takeWaits) (j := .take)
    (code := .closed) (v := { channel := chanField k })
  have hreclaim : State.reclaimChannel p s k =
      ((if a.closedBy p then s else s.closeBy p k).freeReturns k).partEnds p k a.params := by
    simp only [State.reclaimChannel, ha, hp, true_or, if_true]
    rfl
  have hclosedBy : a.closedBy p = a.closedProducer := if_pos hp
  rw [hreclaim, hclosedBy]
  cases hclosed : a.closedProducer with
  | true =>
    refine ⟨s.hpi a.params.consumer, ?_, fun _ _ => rfl⟩
    have hself : a.withoutProducer = { a with returns := [] } := by simp [Active.withoutProducer, hclosed]
    simp only [if_true, State.freeReturns, ha, Chan.active?, State.setHpi_self, hself]
  | false =>
    refine ⟨h, ?_, fun h1 h2 => hdone h1 h2⟩
    have hclose : s.closeBy p k =
        (s.setHpi a.params.consumer h).setChan k (.active { a with closedProducer := true, takeWaits := [] }) := by
      simp only [State.closeBy, ha, Chan.active?, if_pos hp, State.producerClose, State.chan_setChan_same,
        State.setChan_setChan, State.completeAll_setChan]
      rw [hall]
    have hself : a.withoutProducer = { a with closedProducer := true, takeWaits := [], returns := [] } := by
      simp [Active.withoutProducer, hclosed]
    rw [if_neg Bool.false_ne_true, hclose, hself]
    simp only [State.freeReturns, State.chan_setChan_same, Chan.active?, State.setChan_setChan]

theorem State.reclaimChannel_states (p q : Port) : ((State.reclaimChannel p s k).hpi q).state = (s.hpi q).state :=
  congrArg Prod.fst (s.reclaimChannel_controls k q p)

theorem State.reclaimChannel_stamp (p : Port) : (State.reclaimChannel p s k).stamp = s.stamp := by
  rw [State.trafficOnly_reclaimChannel p s k]
  rfl

theorem State.queueLaw.returning (h : s.queueLaw) (ha : s.chan k = .active a) {i : DescIx} (hi : i ∈ a.returns) :
    (s.desc i).state = .returning := by
  have hmem : i ∈ s.returns k := by rwa [s.returns_eq, State.queueAt_returns ha]
  have hon := (((h k).2.2 i).2).1 hmem
  rw [Desc.returningOn, Bool.and_eq_true, beq_iff_eq] at hon
  exact hon.1

theorem State.toldByReclaim_active (ha : s.chan k = .active a) (h : Hpi) :
    s.toldByReclaim p q h k =
      if a.params.producer = p ∧ a.params.consumer = q then
        (if a.closedProducer then h else h.afterAll a.takeWaits .take .closed { channel := BitVec.ofNat 4 k.val }
          s.stamp).afterClose k (decide (a.forward.length + s.heldCount k = 0)) [] .peerDetached p s.stamp
      else if a.params.consumer = p ∧ a.params.producer = q then
        (if a.closedConsumer then h else s.toldOfBounce k a h).afterClose k
          (decide ((s.afterDeparture a).forward.length + s.heldCount k + (s.afterDeparture a).returns.length = 0))
          (s.afterDeparture a).collectWaits .peerDetached p s.stamp
      else h := by
  simp only [State.toldByReclaim, ha]

theorem State.reclaims_producer (hqueue : s.queueLaw) (ha : s.chan k = .active a) (hp : a.params.producer = p)
    (hends : a.params.consumer ≠ p) (hnone : a.collectWaits = []) : s.reclaims p (State.reclaimChannel p s k) [k] := by
  subst hp
  obtain ⟨h, hreclaim, hdone⟩ := State.reclaimChannel_producer (s := s) ha rfl
  have hstates := State.reclaimChannel_states (s := s) (k := k) a.params.producer
  have hstamp := State.reclaimChannel_stamp (s := s) (k := k) a.params.producer
  have hfree : ∀ i ∈ a.returns, (s.desc i).state ≠ .free := fun i hi => by
    rw [hqueue.returning ha hi]
    decide
  have hn := hqueue.returns_nodup ha
  obtain ⟨hlives, hstay⟩ := State.freeAll_desc a.returns
    ((s.setHpi a.params.consumer h).setChan k (.active a.withoutProducer)) hn hfree
  have hdue := State.freeAll_due a.returns ((s.setHpi a.params.consumer h).setChan k (.active a.withoutProducer)) hn hfree
  have hpool := State.freedAll_foldl a.returns ((s.setHpi a.params.consumer h).setChan k (.active a.withoutProducer)) hn hfree
  have hhpi (x : Port) := State.hpi_of_ports (State.freeAll_ports a.returns
    ((s.setHpi a.params.consumer h).setChan k (.active a.withoutProducer))) x
  have hchan (d : ChanIx) : (a.returns.foldl State.freeDesc
      ((s.setHpi a.params.consumer h).setChan k (.active a.withoutProducer))).chan d =
        ((s.setHpi a.params.consumer h).setChan k (.active a.withoutProducer)).chan d := by
    rw [State.chan, State.freeAll_chans]
    rfl
  have hticks := State.freeAll_ticks a.returns ((s.setHpi a.params.consumer h).setChan k (.active a.withoutProducer))
  generalize a.returns.foldl State.freeDesc ((s.setHpi a.params.consumer h).setChan k (.active a.withoutProducer)) = f at *
  have hfchan : f.chan k = .active a.withoutProducer := (hchan k).trans (State.chan_setChan_same ..)
  have hheld : f.heldCount k = s.heldCount k := by
    refine State.heldCount_congr fun i => ?_
    by_cases hi : i ∈ a.returns
    · rw [hlives i hi, Desc.heldOn, Desc.heldOn, hqueue.returning ha hi]
      rfl
    · rw [hstay i hi]
      rfl
  have hcount : f.inTransit k = a.forward.length + s.heldCount k := by
    rw [State.inTransit_active hfchan, hheld]
    rfl
  have hfstamp : f.stamp = s.stamp := by
    rw [State.stamp, hticks]
    rfl
  obtain ⟨g, h', hends', htold⟩ := State.partEnds_eq hfchan hends.symm (.inl rfl) fun _ => hnone
  have hother : a.withoutProducer.params.other a.params.producer = a.params.consumer := if_pos rfl
  rw [show a.withoutProducer.params = a.params from rfl] at hends' hother htold
  rw [hother, hcount] at hends' htold
  rw [hreclaim, hends'] at hstates hstamp ⊢
  have hfreed := State.freedOn_producer (s := s) ha rfl
  refine ⟨fun d hd => ?_, fun d hd => ?_, fun q hq hwaits => ?_, ?_, hstates, hstamp⟩
  · obtain rfl := List.mem_singleton.1 hd
    rw [State.chan_setChan_same]
    simp only [State.chanAfterReclaim, ha, if_true]
    simp only [Active.withoutProducer, hnone]
  · rw [State.chan_setChan_ne _ _ fun e => hd (by simp [e])]
    exact (hchan d).trans (State.chan_setChan_ne _ _ fun e => hd (by simp [e]))
  · rw [List.foldl_cons, List.foldl_nil, State.toldByReclaim_active ha, State.hpi_setChan]
    by_cases hcq : a.params.consumer = q
    · subst hcq
      obtain ⟨htakes, htags⟩ := hwaits.takes ha rfl hends.symm
      rw [if_pos ⟨rfl, rfl⟩, State.hpi_setHpi_same, htold (by simp [Active.withoutProducer, hnone])
        (by simp [Active.withoutProducer, hnone]), hhpi, State.hpi_setChan, State.hpi_setHpi_same, hdone htakes htags, hfstamp]
      simp only [Active.withoutProducer, hnone]
    · rw [if_neg fun e => hcq e.2, if_neg fun e => hends e.1, State.hpi_setHpi_ne _ _ hcq, State.hpi_setHpi_ne _ _ hq.symm,
        hhpi]
      exact State.hpi_setHpi_ne _ _ hcq
  · refine State.buffersReclaimed.of_eq (f := f) ⟨?_, fun d hd a' ha' hbounced => ?_, fun i hi _ => ?_, ?_, ?_⟩ rfl
    · rw [hfreed]
      exact hlives
    · obtain rfl := List.mem_singleton.1 hd
      obtain rfl : a = a' := by rw [ha] at ha'; cases ha'; rfl
      exact absurd hbounced.1 hends
    · rw [hfreed] at hi
      exact hstay i hi
    · rw [hfreed]
      exact hpool
    · rw [hfreed]
      exact hdue

end

end Sys2Proof.Machine

/-!
PROOFS. A reclaim start over all the channels (R164 to R166, R179).
-/

namespace Sys2Proof.Machine

section
variable {s t f u : State} {p q : Port} {k : ChanIx} {a b : Active} {m : ChanParams} {tag : Tag} {timer : Timer}
  {ks : List ChanIx}

/-! ### A consumer that departs (R166) -/

/-- `f` is `s` once the end of the departing consumer of channel `k`, which was `a`, has been closed, if it was open. -/
structure State.consumerGone (s f : State) (p : Port) (k : ChanIx) (a : Active) : Prop where
  chan : f.chan k = .active (s.afterDeparture a)
  chans : s.otherChans f k
  inTransit : f.inTransit k = (s.afterDeparture a).forward.length + s.heldCount k + (s.afterDeparture a).returns.length
  producer : (∀ w ∈ a.collectWaits, s.hasRequest a.params.producer w.tag .collect) → (a.collectWaits.map Wait.tag).Nodup →
    f.hpi a.params.producer =
        (if a.closedConsumer then s.hpi a.params.producer else s.toldOfBounce k a (s.hpi a.params.producer)) ∧
      ∀ w ∈ (s.afterDeparture a).collectWaits, f.hasRequest a.params.producer w.tag .collect
  others : ∀ x : Port, x ≠ a.params.consumer → x ≠ a.params.producer → f.hpi x = s.hpi x
  buffers : s.buffersReclaimed p f [k]
  stamp : f.stamp = s.stamp

theorem State.consumerGone_closed (ha : s.chan k = .active a) (hends : a.params.producer ≠ p)
    (hnone : a.takeWaits = []) (hclosed : a.closedConsumer = true) : s.consumerGone s p k a := by
  have hself : s.afterDeparture a = a := by
    rw [State.afterDeparture, if_pos hclosed, ← hnone]
  exact {
    chan := by rw [hself, ha]
    chans := fun _ _ => rfl
    inTransit := by rw [hself, State.inTransit_active ha]
    producer := fun hreq _ => ⟨by rw [hclosed, if_pos rfl], by rwa [hself]⟩
    others := fun _ _ _ => rfl
    buffers := by
      refine State.buffersReclaimed_of_quiet ?_ (fun a' ha' hb => ?_) rfl rfl rfl rfl rfl
      · rw [State.freedOn_consumer ha hends, if_neg (by simp [hclosed])]
      · obtain rfl : a = a' := by rw [ha] at ha'; cases ha'; rfl
        exact Bool.false_ne_true (hb.2.symm.trans hclosed)
    stamp := rfl }

theorem State.consumerGone_open (hqueue : s.queueLaw) (ha : s.chan k = .active a) (hp : a.params.consumer = p)
    (hends : a.params.producer ≠ p) (hopen : a.closedConsumer = false) : s.consumerGone (s.closeBy p k) p k a := by
  have hqueued : ∀ i ∈ a.forward, ∃ b tr, (s.desc i).life = .queued b tr := fun i hi => Desc.queued_life (hqueue.queued ha hi)
  have hc := State.closeBy_consumerClosed ha hp hends (hqueue.forward_nodup ha) hqueued
  have hself : s.afterDeparture a = a.afterBounce (s.givesBack a) := by rw [State.afterDeparture, hopen]; rfl
  have hfreed : s.freedOn p [k] = if s.givesBack a = false then a.forward else [] := by
    rw [State.freedOn_consumer ha hends]
    simp only [hp, hopen, true_and]
  exact {
    chan := by rw [hself, hc.chan]
    chans := hc.chans
    inTransit := by
      rw [hself, hc.inTransit hqueued]
      simp [Active.afterBounce]
    producer := fun hreq hn => ⟨by rw [hopen, hc.producer hreq hn]; rfl, by rw [hself]; exact hc.hasRequests hreq hn⟩
    others := hc.others
    buffers := {
      freed := fun i hi => by
        rw [hfreed] at hi
        split at hi
        next hback => exact hc.freed hback i hi
        next => exact absurd hi List.not_mem_nil
      back := fun d hd a' ha' _ hback => by
        obtain rfl := List.mem_singleton.1 hd
        obtain rfl : a = a' := by rw [ha] at ha'; cases ha'; rfl
        exact (hc.back hback).1
      stay := fun i _ hi => hc.stay i (hi k (List.mem_singleton.2 rfl) a ha ⟨hp, hopen⟩)
      pool := fun hb => by
        rw [hfreed] at hb ⊢
        cases hback : s.givesBack a with
        | true => exact (hc.back hback).2
        | false =>
          rw [hback, if_pos rfl] at hb
          exact hc.pool hback hb
      due := by
        rw [hfreed, hc.due]
        cases s.givesBack a <;> rfl }
    stamp := hc.stamp }

theorem State.reclaims_consumer (hqueue : s.queueLaw) (ha : s.chan k = .active a) (hp : a.params.consumer = p)
    (hends : a.params.producer ≠ p) (hnone : a.takeWaits = []) : s.reclaims p (State.reclaimChannel p s k) [k] := by
  have hclosedBy : a.closedBy p = a.closedConsumer := if_neg hends
  have hreclaim : State.reclaimChannel p s k = (if a.closedBy p then s else s.closeBy p k).partEnds p k a.params := by
    simp only [State.reclaimChannel, ha, hp, or_true, if_true, if_neg hends]
    rfl
  have hgone : s.consumerGone (if a.closedBy p then s else s.closeBy p k) p k a := by
    rw [hclosedBy]
    cases hclosed : a.closedConsumer with
    | true => exact State.consumerGone_closed ha hends hnone hclosed
    | false => exact State.consumerGone_open hqueue ha hp hends hclosed
  have hstates := State.reclaimChannel_states (s := s) (k := k) p
  have hstamp := State.reclaimChannel_stamp (s := s) (k := k) p
  generalize (if a.closedBy p then s else s.closeBy p k) = f at *
  subst hp
  have hparams : (s.afterDeparture a).params = a.params := by
    unfold State.afterDeparture
    split <;> rfl
  have hwaits : (s.afterDeparture a).collectWaits <:+ a.collectWaits := by
    unfold State.afterDeparture
    split
    · exact List.suffix_refl _
    · exact Active.afterBounce_waits _
  obtain ⟨g, h, hends', htold⟩ := State.partEnds_eq (p := a.params.consumer) hgone.chan (by rw [hparams]; exact hends)
    (by rw [hparams]; exact .inr rfl) fun e => absurd (hparams ▸ e) hends
  have hother : a.params.other a.params.consumer = a.params.producer := if_neg hends
  rw [hparams, hother] at hends' htold
  rw [hreclaim, hends'] at hstates hstamp ⊢
  refine ⟨fun d hd => ?_, fun d hd => ?_, fun q hq hstand => ?_, ?_, hstates, hstamp⟩
  · obtain rfl := List.mem_singleton.1 hd
    rw [State.chan_setChan_same, hgone.inTransit]
    simp only [State.chanAfterReclaim, ha, if_true, if_neg hends]
  · rw [State.chan_setChan_ne _ _ fun e => hd (by simp [e])]
    exact hgone.chans d fun e => hd (by simp [e])
  · rw [List.foldl_cons, List.foldl_nil, State.toldByReclaim_active ha, State.hpi_setChan, if_neg fun e => hends e.1]
    by_cases hpq : a.params.producer = q
    · subst hpq
      obtain ⟨hreq, hn⟩ := hstand.collects ha hends.symm rfl
      obtain ⟨htold', hleft⟩ := hgone.producer hreq hn
      rw [if_pos ⟨rfl, rfl⟩, State.hpi_setHpi_same, htold hleft (hn.sublist (hwaits.sublist.map Wait.tag)), htold',
        hgone.inTransit, hgone.stamp]
    · rw [if_neg fun e => hpq e.2, State.hpi_setHpi_ne _ _ hpq, State.hpi_setHpi_ne _ _ hq.symm,
        hgone.others q hq (Ne.symm hpq)]
  · exact hgone.buffers.of_eq rfl

/-! ### A channel that is not bound, offered, or none of the port's -/

theorem State.reclaims_stays (hfree : s.freedOn p [k] = []) (hquiet : ∀ a, s.chan k = .active a → ¬a.bouncedBy p)
    (hchan : s.chan k = s.chanAfterReclaim p k) (htold : ∀ q h, q ≠ p → s.toldByReclaim p q h k = h) :
    s.reclaims p s [k] where
  here := fun _ hd => List.mem_singleton.1 hd ▸ hchan
  there := fun _ _ => rfl
  told := fun q hq _ => (htold q _ hq).symm
  buffers := State.buffersReclaimed_of_quiet hfree hquiet rfl rfl rfl rfl rfl
  states := fun _ => rfl
  stamp := rfl

theorem State.toldByReclaim_offered (hm : s.chan k = .offered m tag timer) (h : Hpi) :
    s.toldByReclaim p q h k =
      if m.producer = p ∧ m.consumer = q then h.afterNotice .channelUnbound { channel := BitVec.ofNat 4 k.val } s.stamp
      else if m.consumer = p ∧ m.producer = q then
        h.afterCompletion tag .offer .peerGone { channel := BitVec.ofNat 4 k.val, v0 := BitVec.ofNat 16 (portCode p) } s.stamp
      else h := by
  simp only [State.toldByReclaim, hm]

/-- An offer of the departing port is gone, and the other end is told (R165). -/
theorem State.reclaims_offered (hm : s.chan k = .offered m tag timer) :
    s.reclaims p (State.reclaimChannel p s k) [k] := by
  have hfree : s.freedOn p [k] = [] := State.freedOn_inactive (by rw [hm]; rfl)
  have hquiet : ∀ a, s.chan k = .active a → ¬a.bouncedBy p := fun a ha => by rw [hm] at ha; cases ha
  have hstates := State.reclaimChannel_states (s := s) (k := k) p
  have hstamp := State.reclaimChannel_stamp (s := s) (k := k) p
  have hafter : s.chanAfterReclaim p k = if m.producer = p ∨ m.consumer = p then .unbound else .offered m tag timer := by
    simp only [State.chanAfterReclaim, hm]
  by_cases hprod : m.producer = p
  · have hreclaim : State.reclaimChannel p s k =
        (s.setHpi m.consumer ((s.hpi m.consumer).afterNotice .channelUnbound { channel := BitVec.ofNat 4 k.val }
          s.stamp)).setChan k .unbound := by
      simp only [State.reclaimChannel, hm, if_pos hprod]
      exact State.notice_eq ..
    rw [hreclaim] at hstates hstamp ⊢
    refine ⟨fun d hd => ?_, fun d hd => State.chan_setChan_ne _ _ fun e => hd (by simp [e]), fun q hq _ => ?_,
      State.buffersReclaimed_of_quiet hfree hquiet rfl rfl rfl rfl rfl, hstates, hstamp⟩
    · obtain rfl := List.mem_singleton.1 hd
      rw [hafter, if_pos (.inl hprod), State.chan_setChan_same]
    · rw [List.foldl_cons, List.foldl_nil, State.toldByReclaim_offered hm, State.hpi_setChan]
      by_cases hcq : m.consumer = q
      · subst hcq
        rw [if_pos ⟨hprod, rfl⟩, State.hpi_setHpi_same]
      · rw [if_neg fun e => hcq e.2, if_neg fun e => hq (e.2.symm.trans hprod), State.hpi_setHpi_ne _ _ hcq]
  · by_cases hcons : m.consumer = p
    · obtain ⟨h, hcomplete, hdone⟩ := State.complete_writes (u := s.setChan k .unbound) (q := m.producer) (tag := tag)
        (j := .offer) (code := .peerGone) (v := { channel := chanField k, v0 := word (portCode m.consumer) })
      have hreclaim : State.reclaimChannel p s k = (s.setHpi m.producer h).setChan k .unbound := by
        simp only [State.reclaimChannel, hm, if_neg hprod, if_pos hcons]
        exact hcomplete
      rw [hreclaim] at hstates hstamp ⊢
      refine ⟨fun d hd => ?_, fun d hd => State.chan_setChan_ne _ _ fun e => hd (by simp [e]), fun q hq hstand => ?_,
        State.buffersReclaimed_of_quiet hfree hquiet rfl rfl rfl rfl rfl, hstates, hstamp⟩
      · obtain rfl := List.mem_singleton.1 hd
        rw [hafter, if_pos (.inr hcons), State.chan_setChan_same]
      · rw [List.foldl_cons, List.foldl_nil, State.toldByReclaim_offered hm, State.hpi_setChan, if_neg fun e => hprod e.1]
        by_cases hpq : m.producer = q
        · subst hpq
          rw [if_pos ⟨hcons, rfl⟩, State.hpi_setHpi_same, hdone (hstand.offer hm rfl), hcons]
          rfl
        · rw [if_neg fun e => hpq e.2, State.hpi_setHpi_ne _ _ hpq]
    · have hreclaim : State.reclaimChannel p s k = s := by
        simp only [State.reclaimChannel, hm, if_neg hprod, if_neg hcons]
      rw [hreclaim]
      refine State.reclaims_stays hfree hquiet ?_ fun q h _ => ?_
      · rw [hafter, if_neg (by tauto), hm]
      · rw [State.toldByReclaim_offered hm, if_neg fun e => hprod e.1, if_neg fun e => hcons e.1]

/-- The departing port's own requests wait on no channel. -/
def State.waitless (s : State) (p : Port) (k : ChanIx) : Prop := (s.chan k).dropWaits p = s.chan k

theorem State.waitless.takes (h : s.waitless p k) (ha : s.chan k = .active a) (hp : a.params.consumer = p) :
    a.takeWaits = [] := by
  rw [State.waitless, ha] at h
  have := congrArg Active.takeWaits (Chan.active.inj h)
  simpa [hp] using this.symm

theorem State.waitless.collects (h : s.waitless p k) (ha : s.chan k = .active a) (hp : a.params.producer = p) :
    a.collectWaits = [] := by
  rw [State.waitless, ha] at h
  have := congrArg Active.collectWaits (Chan.active.inj h)
  simpa [hp] using this.symm

/-- One channel of a reclaim start. -/
theorem State.reclaims_one (hqueue : s.queueLaw) (hends : ∀ m, (s.chan k).params? = some m → m.producer ≠ m.consumer)
    (hw : s.waitless p k) : s.reclaims p (State.reclaimChannel p s k) [k] := by
  cases hc : s.chan k with
  | unbound =>
    have hreclaim : State.reclaimChannel p s k = s := by simp only [State.reclaimChannel, hc]
    rw [hreclaim]
    refine State.reclaims_stays (State.freedOn_inactive (by rw [hc]; rfl)) (fun a ha => by rw [hc] at ha; cases ha) ?_
      fun q h _ => ?_
    · simp only [State.chanAfterReclaim, hc]
    · simp only [State.toldByReclaim, hc]
  | offered m tag timer => exact State.reclaims_offered hc
  | active a =>
    have hends := hends a.params (by rw [hc]; rfl)
    by_cases hprod : a.params.producer = p
    · exact State.reclaims_producer hqueue hc hprod (hprod ▸ hends.symm) (hw.collects hc hprod)
    · by_cases hcons : a.params.consumer = p
      · exact State.reclaims_consumer hqueue hc hcons hprod (hw.takes hc hcons)
      · have hreclaim : State.reclaimChannel p s k = s := by
          simp only [State.reclaimChannel, hc, hprod, hcons, or_self, if_false]
        rw [hreclaim]
        refine State.reclaims_stays ?_ (fun a' ha' hb => ?_) ?_ fun q h _ => ?_
        · rw [State.freedOn_consumer hc hprod, if_neg fun e => hcons e.1]
        · obtain rfl : a = a' := by rw [hc] at ha'; cases ha'; rfl
          exact hcons hb.1
        · simp only [State.chanAfterReclaim, hc, hprod, hcons, if_false]
        · rw [State.toldByReclaim_active hc, if_neg fun e => hprod e.1, if_neg fun e => hcons e.1]

end

end Sys2Proof.Machine

/-!
PROOFS. The channels of a reclaim start one after the other (R164 to R167).
-/

namespace Sys2Proof.Machine

/-- `t` is `s` with the descriptors `is` freed and then the descriptors `js`, none of which share a block. -/
theorem State.freedAll.trans {s u t : State} {is js : List DescIx} (h : s.freedAll u is) (h' : u.freedAll t js)
    (hi : ∀ i ∈ is, t.desc i = u.desc i) (hj : ∀ j ∈ js, u.desc j = s.desc j) (hb : (s.blocksOf (is ++ js)).Nodup) :
    s.freedAll t (is ++ js) := by
  have hsplit : s.blocksOf (is ++ js) = s.blocksOf is ++ s.blocksOf js := List.flatMap_append
  have hsame := State.blocksOf_congr hj
  rw [hsplit] at hb
  obtain ⟨-, -, hdisjoint⟩ := List.nodup_append'.1 hb
  obtain ⟨hlives, hlist, hretired, hblocks⟩ := h
  obtain ⟨hlives', hlist', hretired', hblocks'⟩ := h'
  change _ = _ ++ (s.blocksOf is).filter _ at hlist
  change _ = _ ++ (s.blocksOf is).filter _ at hretired
  change _ = _ ++ (u.blocksOf js).filter _ at hlist'
  change _ = _ ++ (u.blocksOf js).filter _ at hretired'
  have hsuspect (b : BlockIx) (hmem : b ∈ s.blocksOf js) : u.block b = s.block b := by
    have hblock := hblocks b
    change _ = if b ∈ s.blocksOf is then _ else _ at hblock
    rw [hblock, if_neg fun h => hdisjoint h hmem]
  refine ⟨fun i hmem => ?_, ?_, ?_, fun b => ?_⟩
  · rcases List.mem_append.1 hmem with hmem | hmem
    · rw [hi i hmem, hlives i hmem]
    · rw [hlives' i hmem, hj i hmem]
  · change _ = s.freeList ++ (s.blocksOf (is ++ js)).filter _
    rw [hlist', hlist, hsame, hsplit, List.filter_append, List.append_assoc]
    exact congrArg _ (congrArg _ (List.filter_congr fun b hmem => by rw [hsuspect b hmem]))
  · change _ = s.retired ++ (s.blocksOf (is ++ js)).filter _
    rw [hretired', hretired, hsame, hsplit, List.filter_append, List.append_assoc]
    exact congrArg _ (congrArg _ (List.filter_congr fun b hmem => by rw [hsuspect b hmem]))
  · have hblock := hblocks b
    have hblock' := hblocks' b
    change _ = if b ∈ s.blocksOf is then _ else _ at hblock
    change _ = if b ∈ u.blocksOf js then _ else _ at hblock'
    change _ = if b ∈ s.blocksOf (is ++ js) then _ else _
    rw [hblock', hsame, hsplit]
    by_cases hmem : b ∈ s.blocksOf js
    · rw [if_pos hmem, if_pos (List.mem_append_right _ hmem), hsuspect b hmem]
    · rw [if_neg hmem, hblock]
      simp only [List.mem_append, hmem, or_false]

section
variable {s t u : State} {p q : Port} {k d c : ChanIx} {a : Active} {ks : List ChanIx} {i : DescIx} {tag : Tag} {j : ReqKind}
  {h : Hpi}

/-! ### The descriptors a channel touches -/

/-- Descriptor `i` stands in a queue of channel `k`. -/
def State.standsOn (s : State) (i : DescIx) (k : ChanIx) : Prop := i ∈ s.forward k ∨ i ∈ s.returns k

theorem State.standsOn_forward (ha : s.chan k = .active a) (hi : i ∈ a.forward) : s.standsOn i k :=
  .inl (by rwa [s.forward_eq, State.queueAt_forward ha])

theorem State.standsOn_returns (ha : s.chan k = .active a) (hi : i ∈ a.returns) : s.standsOn i k :=
  .inr (by rwa [s.returns_eq, State.queueAt_returns ha])

theorem State.queueLaw.standsOn (hq : s.queueLaw) (hi : s.standsOn i k) :
    (s.desc i).state ≠ .held ∧ ∃ tr, (s.desc i).traffic = some tr ∧ tr.channel = k := by
  rcases hi with hi | hi
  · have hon := (((hq k).2.2 i).1).1 hi
    rw [Desc.queuedOn, Bool.and_eq_true, beq_iff_eq] at hon
    exact ⟨by rw [hon.1]; decide, by simpa [Option.any_eq_true] using hon.2⟩
  · have hon := (((hq k).2.2 i).2).1 hi
    rw [Desc.returningOn, Bool.and_eq_true, beq_iff_eq] at hon
    exact ⟨by rw [hon.1]; decide, by simpa [Option.any_eq_true] using hon.2⟩

/-- A descriptor stands on one channel (R11). -/
theorem State.queueLaw.standsOn_unique (hq : s.queueLaw) (hk : s.standsOn i k) (hd : s.standsOn i d) : k = d := by
  obtain ⟨-, tr, htr, rfl⟩ := hq.standsOn hk
  obtain ⟨-, tr', htr', rfl⟩ := hq.standsOn hd
  rw [htr] at htr'
  cases htr'
  rfl

theorem State.standsOn_of_freedOn (hi : i ∈ s.freedOn p ks) : ∃ k ∈ ks, s.standsOn i k := by
  obtain ⟨k, hk, hmem⟩ := List.mem_flatMap.1 hi
  refine ⟨k, hk, ?_⟩
  split at hmem
  · exact absurd hmem List.not_mem_nil
  · exact absurd hmem List.not_mem_nil
  next a ha =>
    split_ifs at hmem
    · exact State.standsOn_returns ha hmem
    · exact State.standsOn_forward ha hmem
    · exact absurd hmem List.not_mem_nil

/-- A descriptor that stands on none of the channels stays as it is. -/
theorem State.buffersReclaimed.stays (h : s.buffersReclaimed p u ks) (hi : ∀ k ∈ ks, ¬s.standsOn i k) :
    u.desc i = s.desc i := by
  refine h.stay i (fun hmem => ?_) fun k hk a ha _ hmem => hi k hk (State.standsOn_forward ha hmem)
  obtain ⟨k, hk, hon⟩ := State.standsOn_of_freedOn hmem
  exact hi k hk hon

theorem State.freedOn_bounced (hk : k ∈ ks) (ha : s.chan k = .active a) (hprod : a.params.producer ≠ p) (hb : a.bouncedBy p)
    (hgone : s.givesBack a = false) (hi : i ∈ a.forward) : i ∈ s.freedOn p ks := by
  refine List.mem_flatMap.2 ⟨k, hk, ?_⟩
  simp only [ha, if_neg hprod, if_pos (show a.params.consumer = p ∧ a.closedConsumer = false ∧ s.givesBack a = false from
    ⟨hb.1, hb.2, hgone⟩)]
  exact hi

/-- No HELD descriptor is touched, and none becomes HELD. -/
theorem State.buffersReclaimed.heldCount (hq : s.queueLaw)
    (hends : ∀ k ∈ ks, ∀ m, (s.chan k).params? = some m → m.producer ≠ m.consumer) (h : s.buffersReclaimed p u ks) :
    u.heldCount c = s.heldCount c := by
  refine State.heldCount_congr fun i => ?_
  by_cases hfreed : i ∈ s.freedOn p ks
  · obtain ⟨k, _, hon⟩ := State.standsOn_of_freedOn hfreed
    have hold : (s.desc i).heldOn c = false := by
      rw [Desc.heldOn, beq_false_of_ne (hq.standsOn hon).1, Bool.false_and]
    rw [hold, h.freed i hfreed]
    rfl
  · by_cases hback : ∃ k ∈ ks, ∃ a, s.chan k = .active a ∧ a.bouncedBy p ∧ i ∈ a.forward
    · obtain ⟨k, hk, a, ha, hb, hmem⟩ := hback
      have hprod : a.params.producer ≠ p := fun e => hends k hk a.params (by rw [ha]; rfl) (e.trans hb.1.symm)
      have hgives : s.givesBack a = true := by
        by_contra hgone
        exact hfreed (State.freedOn_bounced hk ha hprod hb (by simpa using hgone) hmem)
      obtain ⟨b, tr, hl⟩ := Desc.queued_life (hq.queued ha hmem)
      obtain ⟨n, hn⟩ := List.mem_iff_getElem?.1 hmem
      rw [h.back k hk a ha hb hgives n i b tr hn hl]
      have hold : (s.desc i).heldOn c = false := by simp [Desc.heldOn, Desc.state, hl]
      rw [hold]
      split <;> rfl
    · rw [h.stay i hfreed fun k hk a ha hb hmem => hback ⟨k, hk, a, ha, hb, hmem⟩]

/-! ### What the other channels see of one channel's end -/

theorem State.givesBack_congr (h : ∀ q, (u.hpi q).state = (s.hpi q).state) (a : Active) : u.givesBack a = s.givesBack a := by
  simp only [State.givesBack, State.online, h]

theorem State.toldOfBounce_congr (hgives : u.givesBack a = s.givesBack a) (hstamp : u.stamp = s.stamp)
    (hd : ∀ i ∈ a.forward, u.desc i = s.desc i) (h : Hpi) : u.toldOfBounce k a h = s.toldOfBounce k a h := by
  by_cases hk : a.params.kind = .oneWay
  · rw [State.toldOfBounce_oneWay hk, State.toldOfBounce_oneWay hk, hstamp]
  · cases hback : s.givesBack a with
    | false => rw [State.toldOfBounce_gone hk (hgives.trans hback), State.toldOfBounce_gone hk hback]
    | true =>
      rw [State.toldOfBounce_back (hgives.trans hback), State.toldOfBounce_back hback, hstamp,
        State.collectedAll_congr _ _ (fun x hx => hd x.2 (List.of_mem_zip hx).2) hstamp]

/-- What of the state a reclaim start reads at a channel: the channel, the counts, the other ends, the buffers queued. -/
structure State.sameFor (s u : State) (d : ChanIx) : Prop where
  chan : u.chan d = s.chan d
  held : u.heldCount d = s.heldCount d
  gives : ∀ a, u.givesBack a = s.givesBack a
  stamp : u.stamp = s.stamp
  descs : ∀ a, s.chan d = .active a → ∀ i ∈ a.forward, u.desc i = s.desc i

theorem State.sameFor.afterDeparture (h : s.sameFor u d) (a : Active) : u.afterDeparture a = s.afterDeparture a := by
  simp only [State.afterDeparture, h.gives]

theorem State.sameFor.chanAfterReclaim (h : s.sameFor u d) : u.chanAfterReclaim p d = s.chanAfterReclaim p d := by
  simp only [State.chanAfterReclaim, h.chan, h.held, h.afterDeparture]

theorem State.sameFor.toldByReclaim (h : s.sameFor u d) (x : Hpi) : u.toldByReclaim p q x d = s.toldByReclaim p q x d := by
  cases hc : s.chan d with
  | unbound => simp only [State.toldByReclaim, h.chan, hc]
  | offered m tag timer => simp only [State.toldByReclaim, h.chan, hc, h.stamp]
  | active a =>
    rw [State.toldByReclaim_active (h.chan.trans hc), State.toldByReclaim_active hc, h.held, h.stamp, h.afterDeparture,
      State.toldOfBounce_congr (h.gives a) h.stamp (h.descs a hc)]

theorem State.freedOn_congr (h : ∀ d ∈ ks, s.sameFor u d) : u.freedOn p ks = s.freedOn p ks :=
  List.flatMap_congr fun d hd => by simp only [(h d hd).chan, (h d hd).gives]

theorem State.waitsOn_congr (h : ∀ d ∈ ks, u.chan d = s.chan d) : u.waitsOn q ks = s.waitsOn q ks :=
  List.flatMap_congr fun d hd => by simp only [h d hd]

/-- Another channel sees nothing of the end of channel `k`. -/
theorem State.reclaims.sameFor (hq : s.queueLaw) (hends : ∀ m, (s.chan k).params? = some m → m.producer ≠ m.consumer)
    (h : s.reclaims p u [k]) (hd : d ≠ k) :
    s.sameFor u d where
  chan := h.there d (by simpa using hd)
  held := h.buffers.heldCount hq fun k' hk' => by
    obtain rfl := List.mem_singleton.1 hk'
    exact hends
  gives := State.givesBack_congr h.states
  stamp := h.stamp
  descs := fun a ha i hi => h.buffers.stays fun k' hk' hon => by
    obtain rfl := List.mem_singleton.1 hk'
    exact hd (hq.standsOn_unique (State.standsOn_forward ha hi) hon)

end

end Sys2Proof.Machine

/-!
PROOFS. What a reclaim start tells the other ports (R164 to R166, R179).
-/

namespace Sys2Proof.Machine

section
variable {s t u : State} {p q : Port} {k d c : ChanIx} {a : Active} {ks : List ChanIx} {i : DescIx} {tag : Tag} {j : ReqKind}
  {h : Hpi}

/-! ### The requests that stay outstanding -/

theorem Hpi.holds.afterClose (hh : h.holds tag j) {ws : List Wait} (hne : ∀ w ∈ ws, w.tag ≠ tag) (unbinds : Bool)
    (kind : NoticeKind) (stamp : Word) : (h.afterClose k unbinds ws kind p stamp).holds tag j := by
  cases unbinds with
  | true => exact (hh.afterAll ws hne).afterNotice
  | false => exact hh.afterNotice

theorem Hpi.holds.toldOfBounce (hh : h.holds tag j) (hne : ∀ w ∈ a.collectWaits, w.tag ≠ tag) :
    (s.toldOfBounce k a h).holds tag j := by
  by_cases hk : a.params.kind = .oneWay
  · rw [State.toldOfBounce_oneWay hk]
    split
    · exact hh
    · exact hh.afterNotice
  · cases hback : s.givesBack a with
    | false =>
      rw [State.toldOfBounce_gone hk hback]
      exact hh
    | true =>
      have hcollected := hh.collectedAll (s := s) (a.collectWaits.zip a.forward) fun x hx => hne x.1 (List.of_mem_zip hx).1
      rw [State.toldOfBounce_back hback]
      split
      · exact hcollected.afterNotice
      · exact hcollected

theorem State.afterDeparture_waits (s : State) (a : Active) : (s.afterDeparture a).collectWaits <:+ a.collectWaits := by
  unfold State.afterDeparture
  split
  · exact List.suffix_refl _
  · exact Active.afterBounce_waits _

/-- A request that waits on none of the channel stays outstanding. -/
theorem Hpi.holds.toldByReclaim (hh : h.holds tag j) (hq : q ≠ p) (hne : ∀ x ∈ s.waitsOn q [k], x.1 ≠ tag) :
    (s.toldByReclaim p q h k).holds tag j := by
  cases hc : s.chan k with
  | unbound => simpa only [State.toldByReclaim, hc] using hh
  | offered m tag' timer =>
    rw [State.toldByReclaim_offered hc]
    split_ifs with hcons hprod
    · exact hh.afterNotice
    · exact hh.afterCompletion fun e => hne (tag', .offer) (by simp [State.waitsOn, hc, hprod.2]) e.symm
    · exact hh
  | active a =>
    rw [State.toldByReclaim_active hc]
    by_cases hdeparts : a.params.producer = p ∧ a.params.consumer = q
    · have hprod : a.params.producer ≠ q := fun e => hq (e.symm.trans hdeparts.1)
      have hwaits (w : Wait) (hw : w ∈ a.takeWaits) : w.tag ≠ tag := by
        have hx : (w.tag, ReqKind.take) ∈ s.waitsOn q [k] := by
          simp only [State.waitsOn, List.flatMap_cons, List.flatMap_nil, List.append_nil, hc, if_pos hdeparts.2, if_neg hprod]
          exact List.mem_map_of_mem hw
        exact hne _ hx
      rw [if_pos hdeparts]
      refine Hpi.holds.afterClose ?_ (fun w hw => absurd hw List.not_mem_nil) ..
      split
      · exact hh
      · exact hh.afterAll _ hwaits
    · rw [if_neg hdeparts]
      by_cases hdeparts' : a.params.consumer = p ∧ a.params.producer = q
      · have hcons : a.params.consumer ≠ q := fun e => hq (e.symm.trans hdeparts'.1)
        have hwaits (w : Wait) (hw : w ∈ a.collectWaits) : w.tag ≠ tag := by
          have hx : (w.tag, ReqKind.collect) ∈ s.waitsOn q [k] := by
            simp only [State.waitsOn, List.flatMap_cons, List.flatMap_nil, List.append_nil, hc, if_neg hcons,
              if_pos hdeparts'.2, List.nil_append]
            exact List.mem_map_of_mem hw
          exact hne _ hx
        rw [if_pos hdeparts']
        refine Hpi.holds.afterClose ?_ (fun w hw => hwaits w ((s.afterDeparture_waits a).subset hw)) ..
        split
        · exact hh
        · exact hh.toldOfBounce hwaits
      · rw [if_neg hdeparts']
        exact hh

theorem State.waitsOn_cons : s.waitsOn q (k :: ks) = s.waitsOn q [k] ++ s.waitsOn q ks := by
  simp only [State.waitsOn, List.flatMap_cons, List.flatMap_nil, List.append_nil]

theorem State.waitsStand.head (hw : s.waitsStand q (k :: ks)) : s.waitsStand q [k] := by
  obtain ⟨hreq, hn⟩ := hw
  rw [State.waitsOn_cons] at hreq hn
  rw [List.map_append] at hn
  exact ⟨fun x hx => hreq x (List.mem_append_left _ hx), (List.nodup_append'.1 hn).1⟩

/-- The requests that wait on the other channels are outstanding behind the end of channel `k`. -/
theorem State.waitsStand.tail (hw : s.waitsStand q (k :: ks)) (h : s.reclaims p u [k]) (hq : q ≠ p)
    (hchan : ∀ d ∈ ks, u.chan d = s.chan d) : u.waitsStand q ks := by
  have hhead := hw.head
  obtain ⟨hreq, hn⟩ := hw
  rw [State.waitsOn_cons] at hreq hn
  rw [List.map_append] at hn
  obtain ⟨-, hrest, hdisjoint⟩ := List.nodup_append'.1 hn
  rw [State.waitsStand, State.waitsOn_congr hchan]
  refine ⟨fun x hx => ?_, hrest⟩
  rw [State.hasRequest_iff, h.told q hq hhead, List.foldl_cons, List.foldl_nil]
  refine (State.hasRequest_iff.1 (hreq x (List.mem_append_right _ hx))).toldByReclaim hq fun y hy e => ?_
  exact hdisjoint (List.mem_map_of_mem hy) (e ▸ List.mem_map_of_mem hx)

/-! ### The channels one after the other -/

theorem State.freedOn_cons : s.freedOn p (k :: ks) = s.freedOn p [k] ++ s.freedOn p ks := by
  simp only [State.freedOn, List.flatMap_cons, List.flatMap_nil, List.append_nil]

theorem State.buffersReclaimed.trans (hqueue : s.queueLaw) (hk : k ∉ ks) (h : s.buffersReclaimed p u [k])
    (h' : u.buffersReclaimed p t ks) (hsame : ∀ d ∈ ks, s.sameFor u d) :
    s.buffersReclaimed p t (k :: ks) := by
  have hfreed := State.freedOn_congr (p := p) hsame
  have hne (d : ChanIx) (hd : d ∈ ks) : d ≠ k := fun e => hk (e ▸ hd)
  have hforward {x : State} {d : ChanIx} {a : Active} (ha : x.chan d = .active a) {i : DescIx} (hi : i ∈ a.forward) :=
    State.standsOn_forward ha hi
  have hstands {d : ChanIx} (hd : d ∈ ks) {i : DescIx} (hon : u.standsOn i d) : s.standsOn i d := by
    simpa only [State.standsOn, State.forward, State.returns, (hsame d hd).chan] using hon
  have hfirst (i : DescIx) (hi : ∃ d ∈ ks, s.standsOn i d) : u.desc i = s.desc i := by
    obtain ⟨d, hd, hon⟩ := hi
    refine h.stays fun d' hd' hon' => ?_
    obtain rfl := List.mem_singleton.1 hd'
    exact hne d hd (hqueue.standsOn_unique hon hon')
  have hsecond (i : DescIx) (hi : s.standsOn i k) : t.desc i = u.desc i := by
    refine h'.stays fun d hd hon => hne d hd ?_
    exact hqueue.standsOn_unique (hstands hd hon) hi
  refine ⟨fun i hi => ?_, fun d hd a ha hb hback => ?_, fun i hi hstay => ?_, fun hblocks => ?_, ?_⟩
  · rw [State.freedOn_cons, List.mem_append] at hi
    rcases hi with hi | hi
    · obtain ⟨d, hd, hon⟩ := State.standsOn_of_freedOn hi
      obtain rfl := List.mem_singleton.1 hd
      rw [hsecond i hon, h.freed i hi]
    · rw [h'.freed i (hfreed ▸ hi), hfirst i (State.standsOn_of_freedOn hi)]
  · rcases List.mem_cons.1 hd with rfl | hd
    · intro n i b tr hn hl
      rw [hsecond i (hforward ha (List.mem_of_getElem? hn)),
        h.back d (List.mem_singleton.2 rfl) a ha hb hback n i b tr hn hl]
    · intro n i b tr hn hl
      have hkept := hfirst i ⟨d, hd, hforward ha (List.mem_of_getElem? hn)⟩
      rw [h'.back d hd a ((hsame d hd).chan.trans ha) hb (((hsame d hd).gives a).trans hback) n i b tr hn (hkept ▸ hl), hkept]
  · rw [State.freedOn_cons, List.mem_append, not_or] at hi
    rw [h'.stay i (hfreed ▸ hi.2) fun d hd a ha hb => hstay d (List.mem_cons_of_mem k hd) a ((hsame d hd).chan ▸ ha) hb,
      h.stay i hi.1 fun d hd a ha hb => hstay d (by
        rw [List.mem_singleton.1 hd]
        exact List.mem_cons_self) a ha hb]
  · rw [State.freedOn_cons] at hblocks ⊢
    have hsplit : s.blocksOf (s.freedOn p [k] ++ s.freedOn p ks) = s.blocksOf (s.freedOn p [k]) ++ s.blocksOf (s.freedOn p ks) :=
      List.flatMap_append
    have hkept (i : DescIx) (hi : i ∈ s.freedOn p ks) : u.desc i = s.desc i := hfirst i (State.standsOn_of_freedOn hi)
    obtain ⟨hn, hn', -⟩ := List.nodup_append'.1 (hsplit ▸ hblocks)
    have hpool' := h'.pool (by rwa [hfreed, State.blocksOf_congr hkept])
    rw [hfreed] at hpool'
    refine (h.pool hn).trans hpool' (fun i hi => ?_) hkept hblocks
    obtain ⟨d, hd, hon⟩ := State.standsOn_of_freedOn hi
    obtain rfl := List.mem_singleton.1 hd
    exact hsecond i hon
  · rw [h'.due, h.due, hfreed, State.freedOn_cons (ks := ks), List.length_append, Nat.add_assoc]

theorem State.reclaims.trans (hqueue : s.queueLaw)
    (hends : ∀ m, (s.chan k).params? = some m → m.producer ≠ m.consumer) (hk : k ∉ ks) (h : s.reclaims p u [k])
    (h' : u.reclaims p t ks) : s.reclaims p t (k :: ks) := by
  have hne (d : ChanIx) (hd : d ∈ ks) : d ≠ k := fun e => hk (e ▸ hd)
  have hsame (d : ChanIx) (hd : d ∈ ks) : s.sameFor u d := h.sameFor hqueue hends (hne d hd)
  refine ⟨fun d hd => ?_, fun d hd => ?_, fun q hq hw => ?_, h.buffers.trans hqueue hk h'.buffers hsame,
    fun q => (h'.states q).trans (h.states q), h'.stamp.trans h.stamp⟩
  · rcases List.mem_cons.1 hd with rfl | hd
    · rw [h'.there d hk, h.here d (List.mem_singleton.2 rfl)]
    · rw [h'.here d hd, (hsame d hd).chanAfterReclaim]
  · rw [List.mem_cons, not_or] at hd
    rw [h'.there d hd.2, h.there d (by simpa using hd.1)]
  · rw [h'.told q hq (hw.tail h hq fun d hd => (hsame d hd).chan), h.told q hq hw.head, List.foldl_cons, List.foldl_nil,
      List.foldl_cons]
    exact List.foldl_ext _ _ _ fun x d hd => (hsame d hd).toldByReclaim x

theorem State.reclaimChannel_queueLaw (hqueue : s.queueLaw) : (State.reclaimChannel p s k).queueLaw :=
  (calm_reclaimChannel p s k).keeps (fun _ _ _ hm hs => hm.queueLaw hs) hqueue

theorem State.reclaims_foldl (ks : List ChanIx) (s : State) (hn : ks.Nodup) (hqueue : s.queueLaw)
    (hends : ∀ k ∈ ks, ∀ m, (s.chan k).params? = some m → m.producer ≠ m.consumer)
    (hw : ∀ k ∈ ks, s.waitless p k) : s.reclaims p (ks.foldl (State.reclaimChannel p) s) ks := by
  induction ks generalizing s with
  | nil =>
    exact {
      here := fun _ hd => absurd hd List.not_mem_nil
      there := fun _ _ => rfl
      told := fun _ _ _ => rfl
      buffers := {
        freed := fun _ hi => absurd hi List.not_mem_nil
        back := fun _ hd => absurd hd List.not_mem_nil
        stay := fun _ _ _ => rfl
        pool := fun _ => ⟨fun _ hi => absurd hi List.not_mem_nil, (List.append_nil _).symm, (List.append_nil _).symm,
          fun _ => rfl⟩
        due := rfl }
      states := fun _ => rfl
      stamp := rfl }
  | cons k rest ih =>
    obtain ⟨hk, hrest⟩ := List.nodup_cons.1 hn
    have hone := State.reclaims_one hqueue (hends k List.mem_cons_self) (hw k List.mem_cons_self)
    have hqueue' : (State.reclaimChannel p s k).queueLaw := State.reclaimChannel_queueLaw hqueue
    rw [List.foldl_cons]
    have hkept (d : ChanIx) (hd : d ∈ rest) : (State.reclaimChannel p s k).chan d = s.chan d :=
      hone.there d fun e => hk (List.mem_singleton.1 e ▸ hd)
    refine hone.trans hqueue (hends k List.mem_cons_self) hk (ih _ hrest hqueue' (fun d hd => ?_) fun d hd => ?_)
    · rw [hkept d hd]
      exact hends d (List.mem_cons_of_mem k hd)
    · rw [State.waitless, hkept d hd]
      exact hw d (List.mem_cons_of_mem k hd)

end

end Sys2Proof.Machine

/-!
PROOFS. What a reclaim start does whatever the laws: the departing port's own HPI, the channels and the descriptors outside
the queues (R164 to R166).
-/

namespace Sys2Proof.Machine

section
variable {s t u f : State} {p q : Port} {k d c : ChanIx} {a b : Active} {m : ChanParams} {tag : Tag} {timer : Timer}
  {ks : List ChanIx} {i : DescIx} {h : Hpi}

/-! ### An HPI that nothing is told to -/

/-- A port that is not ONLINE and has no request outstanding is told nothing. -/
def Hpi.quiet (h : Hpi) : Prop := h.state ≠ .online ∧ h.table = []

theorem State.complete_quiet (hq : h.quiet) (hs : s.hpi p = h) (q : Port) (tag : Tag) (code : ResultCode) (v : Vals) :
    (s.complete q tag code v).hpi p = h := by
  by_cases hqp : q = p
  · subst hqp
    rw [State.complete_of_not_find, hs]
    rw [hs, hq.2]
    rfl
  · rw [State.complete_hpi_ne s _ _ _ hqp, hs]

theorem State.notice_quiet (hq : h.quiet) (hs : s.hpi p = h) (q : Port) (kind : NoticeKind) (v : Vals) :
    (s.notice q kind v).hpi p = h := by
  by_cases hqp : q = p
  · subst hqp
    rw [State.notice_eq, State.hpi_setHpi_same, hs, Hpi.afterNotice, if_neg hq.1]
  · rw [State.notice_hpi_ne s _ _ hqp, hs]

theorem State.completeAll_quiet (hq : h.quiet) (ws : List Wait) (hs : s.hpi p = h) (q : Port) (code : ResultCode) (v : Vals) :
    (s.completeAll q ws code v).hpi p = h := by
  induction ws generalizing s with
  | nil => exact hs
  | cons w ws ih => exact ih (State.complete_quiet hq hs ..)

theorem State.foldl_quiet {α : Type} {g : State → α → State} (hg : ∀ (s : State) x, s.hpi p = h → (g s x).hpi p = h)
    (l : List α) (hs : s.hpi p = h) : (l.foldl g s).hpi p = h := by
  induction l generalizing s with
  | nil => exact hs
  | cons x l ih => exact ih (hg s x hs)

theorem State.freeAll_quiet (is : List DescIx) (hs : s.hpi p = h) : (is.foldl State.freeDesc s).hpi p = h :=
  (State.hpi_of_ports (State.freeAll_ports is s) p).trans hs

theorem State.bounceOne_quiet (hq : h.quiet) (s : State) (i : DescIx) (hs : s.hpi p = h) :
    (State.bounceOne k s i).hpi p = h := by
  unfold State.bounceOne
  split
  · unfold State.arrive
    split
    · exact hs
    · split
      · refine State.complete_quiet hq ?_ ..
        exact hs
      · exact hs
  all_goals exact hs

theorem State.noticeReturns_quiet (hq : h.quiet) (hs : s.hpi p = h) (wasEmpty : Bool) :
    (s.noticeReturns k wasEmpty).hpi p = h := by
  unfold State.noticeReturns
  split
  · exact hs
  · split
    · exact State.notice_quiet hq hs ..
    · exact hs

theorem State.closeBy_quiet (hq : h.quiet) (hs : s.hpi p = h) (q : Port) : (s.closeBy q k).hpi p = h := by
  unfold State.closeBy
  split
  · exact hs
  · split
    · unfold State.producerClose
      split
      · exact hs
      · refine State.completeAll_quiet hq _ ?_ ..
        exact hs
    · unfold State.consumerClose
      split
      · exact hs
      next a _ _ =>
        dsimp only
        generalize hshut : State.completeAll _ _ _ _ _ = u
        have hu : u.hpi p = h := by
          rw [← hshut]
          refine State.completeAll_quiet hq _ ?_ ..
          exact hs
        split
        · split
          · exact State.freeAll_quiet _ hu
          · exact State.notice_quiet hq (State.freeAll_quiet _ hu) ..
        · split
          · exact State.noticeReturns_quiet hq (State.foldl_quiet (State.bounceOne_quiet hq) _ hu) _
          · exact State.freeAll_quiet _ hu

theorem State.unbind_quiet_hpi (hq : h.quiet) (hs : s.hpi p = h) : (s.unbind k).hpi p = h := by
  unfold State.unbind
  split
  · exact hs
  · refine State.notice_quiet hq (State.notice_quiet hq ?_ ..) ..
    exact State.completeAll_quiet hq _ hs ..

theorem State.partEnds_quiet (hq : h.quiet) (hs : s.hpi p = h) (q : Port) (m : ChanParams) :
    (s.partEnds q k m).hpi p = h := by
  unfold State.partEnds
  split
  · exact State.unbind_quiet_hpi hq hs
  · exact State.notice_quiet hq hs ..

theorem State.reclaimChannel_quiet (hq : h.quiet) (s : State) (k : ChanIx) (hs : s.hpi p = h) :
    (State.reclaimChannel q s k).hpi p = h := by
  unfold State.reclaimChannel
  split
  · exact hs
  · split
    · refine State.notice_quiet hq ?_ ..
      exact hs
    · split
      · refine State.complete_quiet hq ?_ ..
        exact hs
      · exact hs
  next a _ =>
    split
    · have hclose : (if a.closedBy q then s else s.closeBy q k).hpi p = h := by
        split
        · exact hs
        · exact State.closeBy_quiet hq hs q
      have hfree : (if a.params.producer = q then (if a.closedBy q then s else s.closeBy q k).freeReturns k
          else if a.closedBy q then s else s.closeBy q k).hpi p = h := by
        split
        · unfold State.freeReturns
          split
          · exact hclose
          · exact State.freeAll_quiet _ hclose
        · exact hclose
      exact State.partEnds_quiet hq hfree q a.params
    · exact hs

end

end Sys2Proof.Machine

/-!
PROOFS. The channels and the descriptors outside the queues behind a reclaim start, whatever the laws (R165, R166).
-/

namespace Sys2Proof.Machine

section
variable {s t u f : State} {p q : Port} {k d c : ChanIx} {a b : Active} {m : ChanParams} {tag : Tag} {timer : Timer}
  {ks : List ChanIx} {i : DescIx}

/-- An operation on channel `k` and on the descriptors `is` leaves the other channels and descriptors. -/
structure State.touches (s t : State) (k : ChanIx) (is : List DescIx) : Prop where
  chans : s.otherChans t k
  descs : ∀ i, i ∉ is → t.desc i = s.desc i

theorem State.touches.trans {is : List DescIx} (h : s.touches u k is) (h' : u.touches t k is) : s.touches t k is where
  chans := fun d hd => (h'.chans d hd).trans (h.chans d hd)
  descs := fun i hi => (h'.descs i hi).trans (h.descs i hi)

theorem State.touches.mono {is js : List DescIx} (h : s.touches t k is) (hsub : is ⊆ js) : s.touches t k js where
  chans := h.chans
  descs := fun i hi => h.descs i fun hmem => hi (hsub hmem)

theorem State.freeAll_touches (is : List DescIx) (s : State) (k : ChanIx) :
    s.touches (is.foldl State.freeDesc s) k is where
  chans := fun d _ => by
    rw [State.chan, State.freeAll_chans]
    rfl
  descs := fun i hi => by
    induction is generalizing s with
    | nil => rfl
    | cons j rest ih =>
      rw [List.mem_cons, not_or] at hi
      rw [List.foldl_cons, ih (s.freeDesc j) hi.2, s.freeDesc_desc_ne (Ne.symm hi.1)]

/-- One descriptor that comes back touches the return queue and the waiting COLLECTs of its channel, and itself. -/
theorem State.arrive_touches (ha : s.chan k = .active a) (i : DescIx) (b : Buf) (tr : Traffic) (r : Came) :
    (∃ x y, (s.arrive k i b tr r).chan k = .active { a with returns := x, collectWaits := y }) ∧
      s.touches (s.arrive k i b tr r) k [i] := by
  have hdesc {u : State} {x : Desc} (j : DescIx) (hj : j ∉ [i]) : (u.setDesc i x).desc j = u.desc j :=
    State.desc_setDesc_ne _ _ fun e => hj (by simp [e])
  cases hw : a.collectWaits with
  | nil =>
    rw [State.arrive_returned ha hw]
    exact ⟨⟨_, a.collectWaits, State.chan_setChan_same ..⟩, fun d hd => State.chan_setChan_ne _ _ hd.symm, hdesc⟩
  | cons w ws =>
    obtain ⟨h, hcomplete, -⟩ := State.complete_writes (j := .collect)
      (u := (s.setChan k (.active { a with collectWaits := ws })).setLife i (.collected b tr r)) (q := a.params.producer)
      (tag := w.tag) (code := .done) (v := s.collectVals i b tr r)
    rw [State.arrive_collected ha hw, hcomplete]
    exact ⟨⟨a.returns, _, State.chan_setChan_same ..⟩, fun d hd => State.chan_setChan_ne _ _ hd.symm, hdesc⟩

theorem State.bounceAll_touches (is : List DescIx) (s : State) (a : Active) (ha : s.chan k = .active a) :
    (∃ x y, (is.foldl (State.bounceOne k) s).chan k = .active { a with returns := x, collectWaits := y }) ∧
      s.touches (is.foldl (State.bounceOne k) s) k is := by
  induction is generalizing s a with
  | nil => exact ⟨⟨a.returns, a.collectWaits, ha⟩, fun _ _ => rfl, fun _ _ => rfl⟩
  | cons i rest ih =>
    have hone : (∃ x y, (State.bounceOne k s i).chan k = .active { a with returns := x, collectWaits := y }) ∧
        s.touches (State.bounceOne k s i) k [i] := by
      unfold State.bounceOne
      split
      · exact State.arrive_touches ha ..
      all_goals exact ⟨⟨a.returns, a.collectWaits, ha⟩, fun _ _ => rfl, fun _ _ => rfl⟩
    obtain ⟨⟨x, y, hchan⟩, htouch⟩ := hone
    obtain ⟨hshape, hrest⟩ := ih (State.bounceOne k s i) _ hchan
    rw [List.foldl_cons]
    exact ⟨hshape, (htouch.mono (by simp)).trans (hrest.mono (List.subset_cons_self i rest))⟩

/-! ### An end that is closed -/

theorem State.closeBy_consumer_touches (ha : s.chan k = .active a) (hp : a.params.producer ≠ p) :
    (∃ x y, (s.closeBy p k).chan k = .active { a.shut with returns := x, collectWaits := y }) ∧
      s.touches (s.closeBy p k) k a.forward := by
  obtain ⟨h, hall, -⟩ := State.completeAll_writes (u := s) (q := a.params.consumer) (ws := a.takeWaits) (j := .take)
    (code := .closed) (v := { channel := chanField k })
  have hclose := State.closeBy_consumer ha hp
  rw [hall] at hclose
  dsimp only at hclose
  have hshut : s.touches ((s.setHpi a.params.consumer h).setChan k (.active a.shut)) k a.forward :=
    ⟨fun d hd => State.chan_setChan_ne _ _ hd.symm, fun _ _ => rfl⟩
  obtain ⟨⟨x, y, hchan⟩, hback⟩ := State.bounceAll_touches (k := k) a.forward
    ((s.setHpi a.params.consumer h).setChan k (.active a.shut)) a.shut (State.chan_setChan_same ..)
  have hfree := State.freeAll_touches a.forward ((s.setHpi a.params.consumer h).setChan k (.active a.shut)) k
  have hfreed : (a.forward.foldl State.freeDesc ((s.setHpi a.params.consumer h).setChan k (.active a.shut))).chan k =
      .active a.shut := by
    rw [State.chan, State.freeAll_chans]
    exact State.chan_setChan_same ..
  split_ifs at hclose with hgives hnotice
  · rw [State.noticeReturns_active hchan] at hclose
    rw [hclose]
    exact ⟨⟨x, y, hchan⟩, hshut.trans ⟨hback.chans, hback.descs⟩⟩
  · rw [State.notice_eq] at hclose
    rw [hclose]
    exact ⟨⟨a.returns, a.collectWaits, hfreed⟩, hshut.trans ⟨hfree.chans, hfree.descs⟩⟩
  · rw [hclose]
    exact ⟨⟨a.returns, a.collectWaits, hfreed⟩, hshut.trans hfree⟩

/-- The end of a channel touches the channel alone, which unbinds or stays. -/
theorem State.partEnds_touches (hb : f.chan k = .active b) (m : ChanParams) :
    ((f.partEnds p k m).chan k = .unbound ∨ (f.partEnds p k m).chan k = .active b) ∧ f.touches (f.partEnds p k m) k [] := by
  have hact : (f.chan k).active? ≠ none := by rw [hb]; exact Option.some_ne_none b
  unfold State.partEnds
  split
  · refine ⟨.inl (by rw [f.unbind_chan k k hact, if_pos rfl]), fun d hd => ?_, fun i _ =>
      State.desc_of_descs (State.unbind_descs ..) i⟩
    rw [f.unbind_chan k d hact, if_neg hd.symm]
  · rw [State.notice_eq]
    exact ⟨.inr hb, fun _ _ => rfl, fun _ _ => rfl⟩

/-- `b` is channel `a` once its end `p` has departed, and the channel stays (R166). -/
def Active.partsTo (a b : Active) (p : Port) : Prop :=
  b.params = a.params ∧ b.closedBy p = true ∧ (a.closedBy p = false → b.takeWaits = []) ∧
    (a.params.producer = p → b.returns = [] ∧ b.collectWaits = []) ∧
    (a.params.producer ≠ p → a.closedConsumer = false → b.forward = [])

theorem State.reclaimChannel_bound (ha : s.chan k = .active a) (hp : a.params.producer = p ∨ a.params.consumer = p)
    (hw : s.waitless p k) :
    ((State.reclaimChannel p s k).chan k = .unbound ∨
        ∃ b, (State.reclaimChannel p s k).chan k = .active b ∧ a.partsTo b p) ∧
      s.touches (State.reclaimChannel p s k) k (a.forward ++ a.returns) := by
  by_cases hprod : a.params.producer = p
  · obtain ⟨h, hreclaim, -⟩ := State.reclaimChannel_producer ha hprod
    have htouch := State.freeAll_touches a.returns ((s.setHpi a.params.consumer h).setChan k (.active a.withoutProducer)) k
    have hchan : (a.returns.foldl State.freeDesc ((s.setHpi a.params.consumer h).setChan k
        (.active a.withoutProducer))).chan k = .active a.withoutProducer := by
      rw [State.chan, State.freeAll_chans]
      exact State.chan_setChan_same ..
    have hset : s.touches ((s.setHpi a.params.consumer h).setChan k (.active a.withoutProducer)) k [] :=
      ⟨fun d hd => State.chan_setChan_ne _ _ hd.symm, fun _ _ => rfl⟩
    obtain ⟨hends, htouch'⟩ := State.partEnds_touches (p := p) hchan a.params
    have hnone := hw.collects ha hprod
    rw [hreclaim]
    refine ⟨hends.imp_right fun hstay => ⟨a.withoutProducer, hstay, rfl, if_pos hprod, fun hopen => ?_,
      fun _ => ⟨rfl, hnone⟩, fun hne => absurd hprod hne⟩, ?_⟩
    · rw [Active.closedBy, if_pos hprod] at hopen
      rw [Active.withoutProducer, hopen]
      rfl
    · exact ((hset.mono (List.nil_subset _)).trans (htouch.mono (List.subset_append_right _ _))).trans
        (htouch'.mono (List.nil_subset _))
  · have hcons := hp.resolve_left hprod
    have hclosedBy : a.closedBy p = a.closedConsumer := if_neg hprod
    have hreclaim : State.reclaimChannel p s k = (if a.closedBy p then s else s.closeBy p k).partEnds p k a.params := by
      simp only [State.reclaimChannel, ha, hcons, or_true, if_true, if_neg hprod]
      rfl
    rw [hreclaim, hclosedBy]
    cases hclosed : a.closedConsumer with
    | true =>
      obtain ⟨hends, htouch⟩ := State.partEnds_touches (p := p) ha a.params
      rw [if_pos rfl]
      refine ⟨hends.imp_right fun hstay => ⟨a, hstay, rfl, hclosedBy.trans hclosed, fun _ => hw.takes ha hcons,
        fun hp => absurd hp hprod, fun _ hopen => ?_⟩, htouch.mono (List.nil_subset _)⟩
      exact absurd (hopen.symm.trans hclosed) Bool.false_ne_true
    | false =>
      obtain ⟨⟨x, y, hchan⟩, htouch⟩ := State.closeBy_consumer_touches ha hprod
      obtain ⟨hends, htouch'⟩ := State.partEnds_touches (p := p) hchan a.params
      rw [if_neg Bool.false_ne_true]
      exact ⟨hends.imp_right fun hstay => ⟨{ a.shut with returns := x, collectWaits := y }, hstay, rfl, if_neg hprod,
        fun _ => rfl, fun hp => absurd hp hprod, fun _ _ => rfl⟩,
        (htouch.mono (List.subset_append_left _ _)).trans (htouch'.mono (List.nil_subset _))⟩

/-- What becomes of channel `x` as its end `p` departs, whatever the laws. -/
def Chan.partsTo (x y : Chan) (p : Port) : Prop :=
  ((∀ m, x.params? = some m → m.producer ≠ p ∧ m.consumer ≠ p) → y = x) ∧
    (∀ m tag timer, x = .offered m tag timer → m.producer = p ∨ m.consumer = p → y = .unbound) ∧
    ∀ a, x = .active a → a.params.producer = p ∨ a.params.consumer = p → y = .unbound ∨ ∃ b, y = .active b ∧ a.partsTo b p

/-- One channel of a reclaim start, whatever the laws. -/
theorem State.reclaimChannel_parts (hw : s.waitless p k) :
    (s.chan k).partsTo ((State.reclaimChannel p s k).chan k) p ∧
      s.otherChans (State.reclaimChannel p s k) k ∧
      ∀ i, ¬s.standsOn i k → (State.reclaimChannel p s k).desc i = s.desc i := by
  cases hc : s.chan k with
  | unbound =>
    have hreclaim : State.reclaimChannel p s k = s := by simp only [State.reclaimChannel, hc]
    rw [hreclaim]
    exact ⟨⟨fun _ => hc, nofun, nofun⟩, fun _ _ => rfl, fun _ _ => rfl⟩
  | offered m tag timer =>
    by_cases hp : m.producer = p ∨ m.consumer = p
    · have hreclaim : ∃ q h, State.reclaimChannel p s k = (s.setHpi q h).setChan k .unbound := by
        simp only [State.reclaimChannel, hc]
        split
        · exact ⟨_, _, State.notice_eq ..⟩
        · rw [if_pos (hp.resolve_left ‹_›)]
          obtain ⟨h, hcomplete, -⟩ := State.complete_writes (u := s.setChan k .unbound) (q := m.producer) (tag := tag)
            (j := .offer) (code := .peerGone) (v := { channel := chanField k, v0 := word (portCode m.consumer) })
          exact ⟨_, h, hcomplete⟩
      obtain ⟨q, h, hreclaim⟩ := hreclaim
      rw [hreclaim]
      refine ⟨⟨fun hno => ?_, fun _ _ _ _ _ => State.chan_setChan_same .., nofun⟩,
        fun d hd => State.chan_setChan_ne _ _ hd.symm, fun _ _ => rfl⟩
      obtain ⟨hprod, hcons⟩ := hno m rfl
      exact (hp.elim hprod hcons).elim
    · have hreclaim : State.reclaimChannel p s k = s := by
        rw [not_or] at hp
        simp only [State.reclaimChannel, hc, if_neg hp.1, if_neg hp.2]
      rw [hreclaim]
      exact ⟨⟨fun _ => hc, fun m' _ _ h hp' => by cases h; exact absurd hp' hp, nofun⟩, fun _ _ => rfl,
        fun _ _ => rfl⟩
  | active a =>
    by_cases hp : a.params.producer = p ∨ a.params.consumer = p
    · obtain ⟨hshape, htouch⟩ := State.reclaimChannel_bound hc hp hw
      refine ⟨⟨fun hno => ?_, nofun, fun a' h _ => ?_⟩, htouch.chans, fun i hi => htouch.descs i fun hmem => ?_⟩
      · obtain ⟨hprod, hcons⟩ := hno a.params rfl
        exact (hp.elim hprod hcons).elim
      · cases h
        exact hshape
      · exact hi ((List.mem_append.1 hmem).elim (State.standsOn_forward hc) (State.standsOn_returns hc))
    · have hreclaim : State.reclaimChannel p s k = s := by simp only [State.reclaimChannel, hc, if_neg hp]
      rw [hreclaim]
      exact ⟨⟨fun _ => hc, nofun, fun a' h hp' => by cases h; exact absurd hp' hp⟩, fun _ _ => rfl,
        fun _ _ => rfl⟩

/-- The channels one after the other, whatever the laws. -/
theorem State.reclaimAll_parts (ks : List ChanIx) (s : State) (hn : ks.Nodup) (hw : ∀ k ∈ ks, s.waitless p k) :
    (∀ k ∈ ks, (s.chan k).partsTo ((ks.foldl (State.reclaimChannel p) s).chan k) p) ∧
      (∀ k, k ∉ ks → (ks.foldl (State.reclaimChannel p) s).chan k = s.chan k) ∧
      ∀ i, (∀ k ∈ ks, ¬s.standsOn i k) → (ks.foldl (State.reclaimChannel p) s).desc i = s.desc i := by
  induction ks generalizing s with
  | nil => exact ⟨fun _ h => absurd h List.not_mem_nil, fun _ _ => rfl, fun _ _ => rfl⟩
  | cons k rest ih =>
    obtain ⟨hk, hrest⟩ := List.nodup_cons.1 hn
    obtain ⟨hparts, hchans, hdesc⟩ := State.reclaimChannel_parts (hw k List.mem_cons_self)
    have hkept (d : ChanIx) (hd : d ∈ rest) : (State.reclaimChannel p s k).chan d = s.chan d :=
      hchans d fun e => hk (e ▸ hd)
    obtain ⟨hparts', hchans', hdesc'⟩ := ih (State.reclaimChannel p s k) hrest fun d hd => by
      rw [State.waitless, hkept d hd]
      exact hw d (List.mem_cons_of_mem k hd)
    rw [List.foldl_cons]
    refine ⟨fun d hd => ?_, fun d hd => ?_, fun i hi => ?_⟩
    · rcases List.mem_cons.1 hd with rfl | hd
      · rw [hchans' d hk]
        exact hparts
      · rw [← hkept d hd]
        exact hparts' d hd
    · rw [List.mem_cons, not_or] at hd
      rw [hchans' d hd.2, hchans d hd.1]
    · rw [hdesc' i fun d hd => ?_, hdesc i (hi k List.mem_cons_self)]
      rw [State.standsOn, State.forward, State.returns, hkept d hd]
      exact hi d (List.mem_cons_of_mem k hd)

end

end Sys2Proof.Machine

/-!
PROOFS. The reclaim start: DETACH and the port reset input (R162 to R167, R179).
-/

namespace Sys2Proof.Machine

/-- Channel `a` without the entries of `p` in its wait lists (R84). -/
def Active.without (a : Active) (p : Port) : Active :=
  { a with
    takeWaits := if a.params.consumer = p then [] else a.takeWaits
    collectWaits := if a.params.producer = p then [] else a.collectWaits }

/-- `u` is `s` once the holdings of the departing port `p` have been dropped, and before the channels are taken (R164). -/
structure State.departed (p : Port) (s u : State) : Prop where
  chan : ∀ k, u.chan k = (s.chan k).dropWaits p
  descs : u.descs = s.descs
  hpi : ∀ q, q ≠ p → u.hpi q = s.hpi q
  stamp : u.stamp = s.stamp
  freeList : u.freeList = s.freeList
  retired : u.retired = s.retired
  blocks : u.blocks = s.blocks

section
variable {s t u : State} {p q : Port} {k : ChanIx} {a : Active} {ks : List ChanIx} {i : DescIx} {r : Request} {c : Instr}

/-! ### What the dropped holdings leave -/

theorem State.departed_dropHoldings (s : State) (p : Port) (x : Bool) :
    s.departed p ((s.setHpi p { s.hpi p with resetIn := x }).dropHoldings p) where
  chan := fun k => State.dropHoldings_chan ..
  descs := State.dropHoldings_descs ..
  hpi := fun q hq => by rw [State.dropHoldings_hpi, if_neg hq.symm, s.hpi_setHpi_ne _ hq.symm]
  stamp := by
    unfold State.dropHoldings
    dsimp only
    split <;> rfl
  freeList := by
    unfold State.dropHoldings
    dsimp only
    split <;> rfl
  retired := by
    unfold State.dropHoldings
    dsimp only
    split <;> rfl
  blocks := by
    unfold State.dropHoldings
    dsimp only
    split <;> rfl

theorem State.departed.active (h : s.departed p u) (ha : s.chan k = .active a) : u.chan k = .active (a.without p) := by
  rw [h.chan, ha]
  rfl

theorem State.departed.waitless (h : s.departed p u) (k : ChanIx) : u.waitless p k := by
  rw [State.waitless, h.chan]
  cases s.chan k with
  | unbound => rfl
  | offered _ _ _ => rfl
  | active a =>
    simp only [Chan.dropWaits]
    congr 2
    · split <;> rfl
    · split <;> rfl

theorem State.departed.params (h : s.departed p u) (k : ChanIx) : (u.chan k).params? = (s.chan k).params? := by
  rw [h.chan]
  cases s.chan k <;> rfl

theorem State.departed.queueAt (h : s.departed p u) (x : Bool × ChanIx) : u.queueAt x = s.queueAt x := by
  rw [State.queueAt, h.chan, Chan.queue_dropWaits]
  rfl

theorem State.departed.desc (h : s.departed p u) (i : DescIx) : u.desc i = s.desc i := State.desc_of_descs h.descs i

theorem State.departed.standsOn_iff (h : s.departed p u) : u.standsOn i k ↔ i ∈ s.forward k ∨ i ∈ s.returns k := by
  rw [State.standsOn, u.forward_eq, u.returns_eq, h.queueAt, h.queueAt, s.forward_eq, s.returns_eq]

theorem State.departed.queueLaw (h : s.departed p u) (hs : s.queueLaw) : u.queueLaw := by
  intro k
  obtain ⟨hforward, hreturns, hmem⟩ := hs k
  rw [u.forward_eq, u.returns_eq, h.queueAt, h.queueAt, ← s.forward_eq, ← s.returns_eq]
  exact ⟨hforward, hreturns, fun i => by rw [h.desc]; exact hmem i⟩

theorem State.departed.held (h : s.departed p u) : u.heldCount k = s.heldCount k := State.heldCount_of_descs h.descs

theorem State.departed.givesBack (h : s.departed p u) (hp : a.params.producer ≠ p) (b : Active) (hb : b.params = a.params) :
    u.givesBack b = s.givesBack a := by
  simp only [State.givesBack, State.online, hb, h.hpi _ hp]

/-! ### What a reclaim start reads of the channels -/

theorem State.departed.afterDeparture (h : s.departed p u) (hp : a.params.producer ≠ p) (hc : a.params.consumer = p) :
    u.afterDeparture (a.without p) = s.afterDeparture a := by
  have hgives := h.givesBack hp (a.without p) rfl
  unfold State.afterDeparture
  rw [hgives]
  simp only [Active.without, Active.afterBounce, if_neg hp, if_pos hc]

theorem State.departed.chanAfterReclaim (h : s.departed p u) (hends : s.endsLaw) (k : ChanIx) :
    u.chanAfterReclaim p k = s.chanAfterReclaim p k := by
  cases hc : s.chan k with
  | unbound => simp only [State.chanAfterReclaim, h.chan, hc, Chan.dropWaits]
  | offered m tag timer => simp only [State.chanAfterReclaim, h.chan, hc, Chan.dropWaits]
  | active a =>
    have hne := hends k a.params (by rw [hc]; rfl)
    simp only [State.chanAfterReclaim, h.active hc, hc, h.held]
    by_cases hprod : a.params.producer = p
    · have hcons : a.params.consumer ≠ p := fun e => hne (hprod.trans e.symm)
      simp only [Active.without, if_pos hprod, if_neg hcons]
    · by_cases hcons : a.params.consumer = p
      · rw [h.afterDeparture hprod hcons]
        simp only [Active.without, if_neg hprod, if_pos hcons]
      · simp only [Active.without, if_neg hprod, if_neg hcons]

theorem State.departed.toldByReclaim (h : s.departed p u) (hends : s.endsLaw) (hq : q ≠ p) (x : Hpi) (k : ChanIx) :
    u.toldByReclaim p q x k = s.toldByReclaim p q x k := by
  cases hc : s.chan k with
  | unbound => simp only [State.toldByReclaim, h.chan, hc, Chan.dropWaits]
  | offered m tag timer => simp only [State.toldByReclaim, h.chan, hc, Chan.dropWaits, h.stamp]
  | active a =>
    have hne := hends k a.params (by rw [hc]; rfl)
    rw [State.toldByReclaim_active (h.active hc), State.toldByReclaim_active hc, h.held, h.stamp]
    by_cases hdeparts : a.params.producer = p ∧ a.params.consumer = q
    · rw [if_pos hdeparts, if_pos (show (a.without p).params.producer = p ∧ (a.without p).params.consumer = q from hdeparts)]
      have htakes : (a.without p).takeWaits = a.takeWaits := if_neg fun e => hne (hdeparts.1.trans e.symm)
      rw [htakes]
      rfl
    · rw [if_neg hdeparts, if_neg (show ¬((a.without p).params.producer = p ∧ (a.without p).params.consumer = q) from hdeparts)]
      by_cases hdeparts' : a.params.consumer = p ∧ a.params.producer = q
      · have hprod : a.params.producer ≠ p := fun e => hq (hdeparts'.2.symm.trans e)
        have hself : a.without p = { a with takeWaits := [] } := by
          simp only [Active.without, if_pos hdeparts'.1, if_neg hprod]
        have htold : u.toldOfBounce k (a.without p) x = s.toldOfBounce k a x := by
          rw [State.toldOfBounce_congr (h.givesBack (a := a.without p) hprod _ rfl) h.stamp fun i _ => h.desc i, hself]
          rfl
        rw [if_pos hdeparts', if_pos (show (a.without p).params.consumer = p ∧ (a.without p).params.producer = q from hdeparts'),
          h.afterDeparture hprod hdeparts'.1, htold]
        rfl
      · rw [if_neg hdeparts',
          if_neg (show ¬((a.without p).params.consumer = p ∧ (a.without p).params.producer = q) from hdeparts')]

theorem State.departed.freedOn (h : s.departed p u) : u.freedOn p ks = s.freedOn p ks :=
  List.flatMap_congr fun k _ => by
    cases hc : s.chan k with
    | unbound => simp only [h.chan, hc, Chan.dropWaits]
    | offered m tag timer => simp only [h.chan, hc, Chan.dropWaits]
    | active a =>
      simp only [h.active hc]
      by_cases hprod : a.params.producer = p
      · rw [if_pos hprod, if_pos (show (a.without p).params.producer = p from hprod)]
        rfl
      · rw [if_neg hprod, if_neg (show ¬(a.without p).params.producer = p from hprod), h.givesBack (a := a) hprod (a.without p) rfl]
        rfl

theorem State.departed.waitsOn (h : s.departed p u) (hq : q ≠ p) : u.waitsOn q ks = s.waitsOn q ks :=
  List.flatMap_congr fun k _ => by
    cases hc : s.chan k with
    | unbound => simp only [h.chan, hc, Chan.dropWaits]
    | offered m tag timer => simp only [h.chan, hc, Chan.dropWaits]
    | active a =>
      simp only [h.active hc]
      have htakes : (if (a.without p).params.consumer = q then (a.without p).takeWaits.map (fun w => (w.tag, ReqKind.take)) else []) =
          if a.params.consumer = q then a.takeWaits.map (fun w => (w.tag, ReqKind.take)) else [] := by
        refine ite_congr rfl (fun hc => ?_) fun _ => rfl
        rw [show (a.without p).takeWaits = a.takeWaits from if_neg fun e => hq (hc.symm.trans e)]
      have hcollects : (if (a.without p).params.producer = q then (a.without p).collectWaits.map (fun w => (w.tag, ReqKind.collect))
          else []) = if a.params.producer = q then a.collectWaits.map (fun w => (w.tag, ReqKind.collect)) else [] := by
        refine ite_congr rfl (fun hc => ?_) fun _ => rfl
        rw [show (a.without p).collectWaits = a.collectWaits from if_neg fun e => hq (hc.symm.trans e)]
      rw [htakes, hcollects]

/-! ### The two commands -/

/-- DETACH's presentation and the assertion of the port reset input of an ONLINE port are the reclaim start. -/
theorem exec_reclaim (h : (c = .detach p ∧ s.presents .detach p r) ∨ (c = .portResetAssert p ∧ s.online p = true)) :
    ∃ x, ((s.hpi p).resetIn || c == .portResetAssert p) = x ∧
      exec c s = .next ((s.setHpi p { s.hpi p with resetIn := x }).reclaimStart p) := by
  rcases h with ⟨rfl, hpres⟩ | ⟨rfl, honline⟩
  · refine ⟨(s.hpi p).resetIn, Bool.or_false _, (hpres.exec rfl : exec (.detach p) s = .next (settleDetach r p s)).trans ?_⟩
    rw [show ({ s.hpi p with resetIn := (s.hpi p).resetIn } : Hpi) = s.hpi p from rfl, State.setHpi_self]
    rfl
  · refine ⟨true, by simp, congrArg Host.Outcome.next ?_⟩
    rw [honline, if_pos rfl]

theorem State.reclaimStart_reclaims (h : s.departed p u) (hqueue : s.queueLaw) (hends : s.endsLaw) :
    u.reclaims p ((List.finRange 16).foldl (State.reclaimChannel p) u) (List.finRange 16) :=
  State.reclaims_foldl _ u (List.nodup_finRange 16) (h.queueLaw hqueue) (fun k _ m hm => hends k m (h.params k ▸ hm))
    fun k _ => h.waitless k

end

/-- Settles O34, by the channels taken in turn. -/
theorem reclaimStartTellsTheOtherEnd : Obligations.ReclaimStartTellsTheOtherEnd := by
  intro s p r c h hqueue hends
  obtain ⟨x, -, hexec⟩ := exec_reclaim h
  have hdeparted := s.departed_dropHoldings p x
  have hreclaims := State.reclaimStart_reclaims hdeparted hqueue hends
  refine ⟨_, hexec, fun k => ?_, fun q hq hreq hn => ?_⟩
  · exact (hreclaims.here k (List.mem_finRange k)).trans (hdeparted.chanAfterReclaim hends k)
  · refine (hreclaims.told q hq ⟨fun y hy => ?_, ?_⟩).trans ?_
    · rw [hdeparted.waitsOn hq] at hy
      exact (hreq y hy).of_hpi (hdeparted.hpi q hq)
    · rw [hdeparted.waitsOn hq]
      exact hn
    · rw [hdeparted.hpi q hq]
      exact List.foldl_ext _ _ _ fun h k _ => hdeparted.toldByReclaim hends hq h k

end Sys2Proof.Machine

/-!
PROOFS. What a reclaim start takes from the departing port, what it frees, and what stays (R162 to R167).
-/

namespace Sys2Proof.Machine

section
variable {s t u : State} {p : Port} {k : ChanIx} {a : Active} {ks : List ChanIx} {y : Chan}

/-! ### What the dropped holdings leave of the records -/

theorem State.dropHoldings_retest (s : State) (p : Port) :
    (s.dropHoldings p).retest = s.retest.map fun x =>
      if x.requester.map Prod.fst = some p then { x with requester := none } else x := by
  have hdrop : (s.dropHoldings p).retest = s.retest.map fun t =>
      if t.requester.any (fun q => decide (q.1 = p)) then { t with requester := none } else t := by
    unfold State.dropHoldings
    dsimp only
    split <;> rfl
  rw [hdrop]
  refine congrArg (s.retest.map ·) (funext fun x => ?_)
  cases hr : x.requester with
  | none => rfl
  | some q => simp

/-- One re-examination is called for where the port's own entry headed the allocation wait list (R31). -/
theorem State.dropHoldings_due (s : State) (p : Port) :
    (s.dropHoldings p).reexamsDue = s.reexamsDue +
      match s.allocWaits with
      | [] => 0
      | e :: _ => if e.port = p then 1 else 0 := by
  unfold State.dropHoldings
  dsimp only
  cases hwaits : s.allocWaits with
  | nil => rfl
  | cons e rest => by_cases he : e.port = p <;> simp [he, State.callReexam]

/-! ### From the state without the holdings back to the state before the event -/

theorem Chan.dropWaits_of_no_end {x : Chan} (h : ∀ m, x.params? = some m → m.producer ≠ p ∧ m.consumer ≠ p) :
    x.dropWaits p = x := by
  cases x with
  | unbound => rfl
  | offered _ _ _ => rfl
  | active a =>
    obtain ⟨hprod, hcons⟩ := h a.params rfl
    simp only [Chan.dropWaits, if_neg hprod, if_neg hcons]

/-- What becomes of a channel does not depend on the departing port's own entries. -/
theorem Chan.partsTo.of_dropWaits {x : Chan} (h : (x.dropWaits p).partsTo y p) : x.partsTo y p := by
  obtain ⟨hno, hoffered, hactive⟩ := h
  refine ⟨fun hends => ?_, fun m tag timer hx hp => ?_, fun a hx hp => ?_⟩
  · rw [Chan.dropWaits_of_no_end hends] at hno
    exact hno hends
  · exact hoffered m tag timer (by rw [hx]; rfl) hp
  · exact hactive (a.without p) (by rw [hx]; rfl) hp

/-- What becomes of the channels and of the descriptors that stand on none, said of the state before the event. -/
theorem State.departed.parts (h : s.departed p u) :
    (∀ k, (s.chan k).partsTo (((List.finRange 16).foldl (State.reclaimChannel p) u).chan k) p) ∧
      ∀ i, (∀ k, i ∉ s.forward k ∧ i ∉ s.returns k) →
        ((List.finRange 16).foldl (State.reclaimChannel p) u).desc i = s.desc i := by
  obtain ⟨hparts, -, hdesc⟩ := State.reclaimAll_parts (List.finRange 16) u (List.nodup_finRange 16) fun k _ => h.waitless k
  refine ⟨fun k => Chan.partsTo.of_dropWaits ?_, fun i hi => (hdesc i fun k _ hon => ?_).trans (h.desc i)⟩
  · rw [← h.chan]
    exact hparts k (List.mem_finRange k)
  · exact (h.standsOn_iff.1 hon).elim (hi k).1 (hi k).2

theorem State.queueLaw.freedOn_nodup (hqueue : s.queueLaw) (hn : ks.Nodup) : (s.freedOn p ks).Nodup := by
  induction ks with
  | nil => exact List.nodup_nil
  | cons k rest ih =>
    obtain ⟨hk, hrest⟩ := List.nodup_cons.1 hn
    rw [State.freedOn_cons]
    refine List.Nodup.append ?_ (ih hrest) fun i hi hi' => ?_
    · cases hc : s.chan k with
      | unbound => simp [State.freedOn, hc]
      | offered _ _ _ => simp [State.freedOn, hc]
      | active a =>
        by_cases hprod : a.params.producer = p
        · rw [State.freedOn_producer hc hprod]
          exact hqueue.returns_nodup hc
        · rw [State.freedOn_consumer hc hprod]
          split
          · exact hqueue.forward_nodup hc
          · exact List.nodup_nil
    · obtain ⟨c, hc, hon⟩ := State.standsOn_of_freedOn hi
      obtain ⟨d, hd, hon'⟩ := State.standsOn_of_freedOn hi'
      obtain rfl := List.mem_singleton.1 hc
      exact hk (hqueue.standsOn_unique hon hon' ▸ hd)

theorem State.departed.blocksOf (h : s.departed p u) (is : List DescIx) : u.blocksOf is = s.blocksOf is :=
  State.blocksOf_congr fun i _ => h.desc i

theorem State.departed.freedAll (h : s.departed p u) {is : List DescIx} (hfreed : u.freedAll t is) : s.freedAll t is := by
  have hblock (b : BlockIx) : u.block b = s.block b := by rw [State.block, h.blocks]; rfl
  have hblocks : (is.flatMap fun i => (u.desc i).blockList) = is.flatMap fun i => (s.desc i).blockList := h.blocksOf is
  simpa only [State.freedAll, h.desc, h.freeList, h.retired, hblock, hblocks] using hfreed

theorem State.departed.undelivered (h : s.departed p u) (hprod : a.params.producer ≠ p)
    (hback : u.undelivered t (a.without p)) : s.undelivered t a := by
  have hself : (a.without p).collectWaits = a.collectWaits := if_neg hprod
  have hforward : (a.without p).forward = a.forward := rfl
  simpa only [State.undelivered, h.desc, hself, hforward] using hback

/-- What a reclaim start does to the buffers, said of the state before the event (R29, R31, R53, R54, R166, R167). -/
theorem State.departed.buffersReclaimed (h : s.departed p u) (hqueue : s.queueLaw) (hblocks : s.blockLaw) (hends : s.endsLaw)
    (hn : ks.Nodup) (hr : u.buffersReclaimed p t ks) :
    s.freedAll t (s.freedOn p ks) ∧ t.reexamsDue = u.reexamsDue + (s.freedOn p ks).length ∧
      (∀ k ∈ ks, ∀ a, s.chan k = .active a → a.bouncedBy p → s.givesBack a = true → s.undelivered t a) ∧
      ∀ i, i ∉ s.freedOn p ks → (∀ k ∈ ks, ∀ a, s.chan k = .active a → a.bouncedBy p → i ∉ a.forward) →
        t.desc i = s.desc i := by
  have hfreed : u.freedOn p ks = s.freedOn p ks := h.freedOn
  refine ⟨h.freedAll (hfreed ▸ hr.pool ?_), by rw [hr.due, hfreed], fun k hk a ha hbounced hgives => ?_,
    fun i hi hforward => ?_⟩
  · rw [hfreed, h.blocksOf]
    exact hblocks.blocksOf_nodup (hqueue.freedOn_nodup hn)
  · have hprod : a.params.producer ≠ p := fun e => hends k a.params (by rw [ha]; rfl) (e.trans hbounced.1.symm)
    exact h.undelivered hprod
      (hr.back k hk (a.without p) (h.active ha) hbounced ((h.givesBack (a := a) hprod (a.without p) rfl).trans hgives))
  · rw [hr.stay i (hfreed.symm ▸ hi) fun k hk b hb hbounced hmem => ?_, h.desc]
    rw [h.chan] at hb
    cases hc : s.chan k with
    | active a =>
      rw [hc] at hb
      cases hb
      exact hforward k hk a hc hbounced hmem
    | unbound => rw [hc] at hb; cases hb
    | offered _ _ _ => rw [hc] at hb; cases hb

/-! ### The departing port -/

/-- The HPI of the departing port behind its reclaim start: nothing later in the event is told to it (R164). -/
theorem State.reclaimStart_hpi_self (s : State) (p : Port) :
    (s.reclaimStart p).hpi p = { Hpi.reset with
      state := .reclaiming 0
      resetIn := (s.hpi p).resetIn
      tickLatch := (s.hpi p).tickLatch
      dataOut := (s.hpi p).dataOut } := by
  refine State.foldl_quiet (fun u k hu => State.reclaimChannel_quiet ⟨?_, rfl⟩ u k hu) _ ?_
  · exact PortState.noConfusion
  · rw [State.dropHoldings_hpi, if_pos rfl]

end

/-- Settles O33, by the channels taken in turn from the state without the port's holdings. -/
theorem reclaimStartDropsHoldings : Obligations.ReclaimStartDropsHoldings := by
  refine ⟨fun s p r c h => ?_, fun s p hoffline => ?_, fun s p => rfl⟩
  · obtain ⟨x, hx, hexec⟩ := exec_reclaim h
    have hdeparted := s.departed_dropHoldings p x
    obtain ⟨hchan, hdesc⟩ := hdeparted.parts
    have hframe := State.reclaimStart_frame (s.setHpi p { s.hpi p with resetIn := x }) p
    have hself := State.reclaimStart_hpi_self (s.setHpi p { s.hpi p with resetIn := x }) p
    rw [State.hpi_setHpi_same] at hself
    have hwaits := congrArg State.allocWaits hframe
    have hretest := congrArg State.retest hframe
    refine ⟨_, hexec, ?_, hwaits.trans (State.dropHoldings_allocWaits ..), hretest.trans (State.dropHoldings_retest ..), fun k => (hchan k).1, fun k => (hchan k).2.1, fun k => (hchan k).2.2,
      hdesc, fun hqueue hblocks hends => ?_, ?_⟩
    · rw [hx]
      exact hself
    · obtain ⟨hfreed, hdue, hback, hstay⟩ := hdeparted.buffersReclaimed hqueue hblocks hends (List.nodup_finRange 16)
        (State.reclaimStart_reclaims hdeparted hqueue hends).buffers
      refine ⟨hfreed, ?_, fun k => hback k (List.mem_finRange k), fun i hi hforward => hstay i hi fun k _ => hforward k⟩
      rw [State.dropHoldings_due, Nat.add_right_comm] at hdue
      exact hdue
    · refine hframe.trans ?_
      dsimp only at hwaits hretest
      rw [← hwaits, ← hretest]
      rfl
  · refine congrArg Host.Outcome.next ?_
    rw [hoffline, if_neg Bool.false_ne_true]

end Sys2Proof.Machine
